-- ==== Sys2Proof/Word.lean ====
section
/-! DEFINITION. The widths of the block's ports and the record of its four outputs.
Parameters ADDR_WIDTH, INDEX_WIDTH and OFFSET_PORT_WIDTH of 00_scope.md R9 and R10; ports of 10_state.md R16
and R22. Every value is unsigned, bit 0 the least significant (R11, R28). -/

namespace Sys2Proof

/-- A linear address as carried on `addr_i[63:0]` (R16). -/
abbrev LinearAddress := BitVec 64

/-- The `MODE` field as carried on `mode_i` (R16, R41). -/
abbrev ModeBit := BitVec 1

/-- A page-table index as carried on `l4_idx_o`, `l3_idx_o` or `l2_idx_o` (R22). -/
abbrev Index := BitVec 9

/-- A page offset as carried on `offset_o[20:0]` (R22). -/
abbrev Offset := BitVec 21

/-- A byte of an encoded operation, as a loader lays it out (log 7: the block itself has no bytes, R29). -/
abbrev Byte := BitVec 8

/-- The record `Indices` of R13, the source's Decoded Indices: what the four output ports carry. -/
structure Indices where
  level4Index : Index
  level3Index : Index
  level2Index : Index
  pageOffset : Offset
  deriving DecidableEq, Repr, Inhabited

end Sys2Proof
end

