-- ==== Sys2Proof/Syntax.lean ====
section
/-! DEFINITION. The operations of the block: 30_encoding.md, whole. -/

namespace Sys2Proof

/-- The page-size modes. There are exactly two (R4). -/
inductive Mode where
  | fourKiB
  | twoMiB
  deriving DecidableEq, Repr, Inhabited

/-- The opcode map of R43, one constructor per row. No operand is encoded (R44): ADDR is read from `addr_i` and
the results go to the output ports (R42). -/
inductive Instr where
  /-- DECODE.4K, MODE = 0 (R59). -/
  | decode4K
  /-- DECODE.2M, MODE = 1 (R60). -/
  | decode2M
  deriving DecidableEq, Repr, Inhabited

/-- The page-size mode an operation decodes for (R43). -/
def Instr.mode : Instr → Mode
  | .decode4K => .fourKiB
  | .decode2M => .twoMiB

/-- The spec's mnemonic of an operation (R49). -/
def Instr.mnemonic : Instr → String
  | .decode4K => "DECODE.4K"
  | .decode2M => "DECODE.2M"

/-- One pair of values for the two input ports: what the host drives for one evaluation (R24, R69). -/
structure Drive where
  addr : LinearAddress
  mode : Mode
  deriving DecidableEq, Repr, Inhabited

/-- A line of the operation syntax: `DECODE.4K <addr>` or `DECODE.2M <addr>` (R49), or the pseudo-operation
`DECODE.BOTH <addr>` (R50). The address is the number as written, not yet checked to have 64 bits. -/
inductive Assembly where
  | op (i : Instr) (addr : Nat)
  | decodeBoth (addr : Nat)
  deriving DecidableEq, Repr

end Sys2Proof
end

