-- ==== Sys2Proof/WellFormed.lean ====
section
/-! DEFINITION. Which terms of the syntax stand for something the block can be driven with. -/

namespace Sys2Proof

/-- An operation has no encoded operand (R44) and every MODE value is legal (R46), so every one is well formed. -/
def Instr.wf : Instr → Bool
  | .decode4K => true
  | .decode2M => true

/-- `<addr>` is a 64-bit value (R49): a number of 65 bits or more cannot be driven onto `addr_i`. -/
def Assembly.wf : Assembly → Bool
  | .op i addr => i.wf && decide (addr < 2 ^ 64)
  | .decodeBoth addr => decide (addr < 2 ^ 64)

end Sys2Proof
end

