-- ==== Sys2Proof/Decode.lean ====
section
/-! DEFINITION. Decoding and encoding of operations: 30_encoding.md R41 to R50. -/

namespace Sys2Proof

/-- The value of `MODE` that names a mode: 0 = FourKiB, 1 = TwoMiB (R16, R43; the polarity is the spec's decision D3,
log 17). -/
def modeBit : Mode → ModeBit
  | .fourKiB => 0#1
  | .twoMiB => 1#1

/-- The mode a value of `MODE` names (R43). -/
def modeOfBit (b : ModeBit) : Mode :=
  if b = 0#1 then .fourKiB else .twoMiB

/-- The opcode map of R43: total, since neither value of `MODE` is reserved (R46). -/
def decodeMode (b : ModeBit) : Instr :=
  match modeOfBit b with
  | .fourKiB => .decode4K
  | .twoMiB => .decode2M

/-- The value of the one encoding field of an operation, `MODE` (R42). -/
def encodeMode (i : Instr) : ModeBit :=
  modeBit i.mode

/-- Why a list of bytes is not an encoded operation. -/
inductive DecodeError where
  /-- No byte is left. -/
  | noByte
  /-- A bit above bit 0 is set: the only encoding length is one bit (R48), so this byte is no encoding of format `SEL`. -/
  | notOneBit
  deriving DecidableEq, Repr

/-- Decoding from bytes. The `SEL` word lies in bit 0 of one byte and the seven bits above it are no part of it
(DESIGN CHOICE, log 7). -/
def decodeBytes : List Byte → Except DecodeError (Instr × List Byte)
  | [] => .error .noByte
  | b :: rest =>
    if b.extractLsb' 1 7 = 0#7 then .ok (decodeMode (b.extractLsb' 0 1), rest) else .error .notOneBit

/-- The bytes of an operation: the inverse layout of `decodeBytes` (R42, log 7). -/
def encode (i : Instr) : List Byte :=
  [(encodeMode i).setWidth 8]

/-- The `n` low bytes of a table word, the least significant first. -/
def wordBytes : Nat → Nat → List Byte
  | 0, _ => []
  | n + 1, w => BitVec.ofNat 8 w :: wordBytes n (w / 256)

/-- The instruction read from the bits `w` of a row of the opcode table. -/
def decodeTableWord (nbits w : Nat) : Option Instr :=
  match decodeBytes (wordBytes ((nbits + 7) / 8) w) with
  | .ok (i, _) => some i
  | .error _ => none

/-- What a well-formed line of syntax has the host drive, in order (R49); `DECODE.BOTH` expands to DECODE.4K then
DECODE.2M (R50). An address of more than 64 bits cannot be driven. -/
def Assembly.drives (l : Assembly) : Option (List Drive) :=
  if l.wf then
    match l with
    | .op i addr => some [⟨BitVec.ofNat 64 addr, i.mode⟩]
    | .decodeBoth addr => some [⟨BitVec.ofNat 64 addr, .fourKiB⟩, ⟨BitVec.ofNat 64 addr, .twoMiB⟩]
  else none

end Sys2Proof
end

