-- ==== Sys2Proof/Machine/Operands.lean ====
section
/-! DEFINITION. The field slicers and the function `Decode` of 40_decode.md, the geometry of 20_memory.md R35 and
R36, and the recomposition of R64. Every shift is a logical right shift of an unsigned 64-bit value and every mask a
bitwise AND with a constant (R62). -/

namespace Sys2Proof.Machine

/-- Level-4 index slicer, `(a >> 39) & 0x1FF` (R52). -/
def sliceL4 (a : LinearAddress) : Index := ((a >>> 39) &&& 0x1FF#64).setWidth 9

/-- Level-3 index slicer, `(a >> 30) & 0x1FF` (R53). -/
def sliceL3 (a : LinearAddress) : Index := ((a >>> 30) &&& 0x1FF#64).setWidth 9

/-- Level-2 index slicer, `(a >> 21) & 0x1FF` (R54). -/
def sliceL2 (a : LinearAddress) : Index := ((a >>> 21) &&& 0x1FF#64).setWidth 9

/-- The level-1 index `(a >> 12) & 0x1FF`, named by the spec and output by no port (R57). -/
def sliceL1 (a : LinearAddress) : Index := ((a >>> 12) &&& 0x1FF#64).setWidth 9

/-- FourKiB offset slicer, `a & 0xFFF`, 12 bits (R55). -/
def sliceOff4K (a : LinearAddress) : BitVec 12 := (a &&& 0xFFF#64).setWidth 12

/-- TwoMiB offset slicer, `a & 0x1FFFFF`, 21 bits (R56). -/
def sliceOff2M (a : LinearAddress) : BitVec 21 := (a &&& 0x1FFFFF#64).setWidth 21

/-- The outputs of DECODE.4K (R59); the 12-bit offset is zero-extended onto the 21-bit port (R23). -/
def indices4K (a : LinearAddress) : Indices where
  level4Index := sliceL4 a
  level3Index := sliceL3 a
  level2Index := sliceL2 a
  pageOffset := (sliceOff4K a).setWidth 21

/-- The outputs of DECODE.2M (R60). -/
def indices2M (a : LinearAddress) : Indices where
  level4Index := sliceL4 a
  level3Index := sliceL3 a
  level2Index := sliceL2 a
  pageOffset := sliceOff2M a

/-- `Decode(addr, mode)`, the block's total function (R13). -/
def decodeAddress (a : LinearAddress) : Mode → Indices
  | .fourKiB => indices4K a
  | .twoMiB => indices2M a

/-- The table levels of the four-level hierarchy (R35). -/
inductive Level where
  | level4
  | level3
  | level2
  | level1
  deriving DecidableEq, Repr

/-- The number of address bits below a level's field (R9, R35). -/
def Level.lsb : Level → Nat
  | .level4 => 39
  | .level3 => 30
  | .level2 => 21
  | .level1 => 12

/-- The bytes of address space one entry of a level covers (R35). -/
def Level.span (l : Level) : Nat := 2 ^ l.lsb

/-- The index that selects an entry at a level (R52, R53, R54, R57). -/
def Level.index (l : Level) (a : LinearAddress) : Index :=
  match l with
  | .level4 => sliceL4 a
  | .level3 => sliceL3 a
  | .level2 => sliceL2 a
  | .level1 => sliceL1 a

/-- The levels a translation passes through: a 2MiB page ends one level earlier (R36). -/
def pathLevels : Mode → List Level
  | .fourKiB => [.level4, .level3, .level2, .level1]
  | .twoMiB => [.level4, .level3, .level2]

/-- The index path of a translation (R36). -/
def indexPath (a : LinearAddress) (m : Mode) : List Index :=
  (pathLevels m).map (Level.index · a)

/-- The three index ports, in the fixed order of R22. -/
def reportedPath (r : Indices) : List Index :=
  [r.level4Index, r.level3Index, r.level2Index]

/-- The 48 bits `{l4_idx_o, l3_idx_o, l2_idx_o, offset_o}`, the concatenation of R64 written with shifts as in
95_test_vectors.md P3: each field lies above those to its right. -/
def rebuild (r : Indices) : BitVec 48 :=
  (r.level4Index.setWidth 48 <<< 39) ||| (r.level3Index.setWidth 48 <<< 30) |||
    (r.level2Index.setWidth 48 <<< 21) ||| r.pageOffset.setWidth 48

end Sys2Proof.Machine
end

