-- ==== Sys2Proof/Config.lean ====
section
/-! DEFINITION. The parameters the spec leaves OPEN (00_scope.md R10) and the free values. Each is a constant without
a body, so that a statement holds for every value of it. -/

namespace Sys2Proof

/-- What the host does with a parsed value outside 0 to 2^64 - 1 (R75). -/
inductive HostWideInput where
  | reject
  | truncate64
  deriving DecidableEq, Repr, Inhabited

/-- How a command-line run ended (R81). -/
inductive RunOutcome where
  | ran
  | usage
  deriving DecidableEq, Repr, Inhabited

namespace Config

/-- FREE VALUE (log 5). What the output ports carry between an input change and the end of `T_PD` (R102): the first
argument counts the input changes, the second is the time since the change. Neither the instance nor the pair driven is
an argument: where two counters are equal so are the values, which neither R94 nor R102 says (DESIGN CHOICE, log 5). -/
opaque transientOutputs : Nat → Nat → Indices

/-- `T_PD` less one unit of time; see `propagationDelay`. -/
opaque propagationDelayLessOne : Nat

/-- The parameter `T_PD` of R101, positive and otherwise unbounded (decision D8), in any unit of time (log 6). -/
def propagationDelay : Nat := propagationDelayLessOne + 1

/-- `HostParse` (R74) on every text but the three that R74 fixes; see `Machine.hostParse`. Negative results are
admitted because R75 speaks of them (log 8). -/
opaque hostParseElsewhere : String → Option Int

/-- `HOST_WIDE_INPUT` (R75). -/
opaque hostWideInput : HostWideInput

/-- `LABELS` (R78). -/
opaque labels : Fin 4 → String

/-- `MODE_HEADER` (R78): the line that labels a block with its mode, or none (90_conflicts.md C6). -/
opaque modeHeader : Mode → Option String

/-- The tool description of `USAGE_TEXT` (R79). -/
opaque usageDescription : String

/-- The usage line of `USAGE_TEXT` (R79). -/
opaque usageLine : String

/-- The example line of `USAGE_TEXT` (R79). -/
opaque usageExample : String

/-- `EXIT_STATUS` (R81). -/
opaque exitStatus : RunOutcome → Int

end Config

end Sys2Proof
end

