-- ==== Sys2Proof/Machine/State.lean ====
section
/-! DEFINITION. The state: what stands on the block's ports (10_state.md R16, R22), what its host holds
(41_host_cli.md R69 to R83), and a counter of the model's own.

The block itself stores nothing (R15): no register, program counter, flag, control register or memory (R17 to R21,
R30). The port fields are wires; `Safety.lean` states that settled outputs are a function of the inputs. -/

namespace Sys2Proof.Machine

/-- How far the evaluation in flight has come (R69, R101). -/
inductive Flight where
  /-- None: the host has read the outputs of the last pair it drove, or has driven none. -/
  | idle
  /-- A pair has been driven and `T_PD` has not passed: the outputs may carry any value (R102). -/
  | settling
  /-- The outputs have settled and the host has yet to read them. -/
  | ready
  deriving DecidableEq, Repr

/-- Outputs the host has read, with the pair it drove to get them (R69). -/
structure Reading where
  drive : Drive
  out : Indices
  deriving DecidableEq, Repr

/-- A line of the host's standard output. -/
inductive OutLine where
  /-- The line that labels a block with its mode, where there is one (R78). -/
  | header (text : String)
  /-- A numeric line, label and value (R76). -/
  | value (label : String) (n : Nat)
  /-- The delimiter between the blocks (R76). -/
  | delimiter
  /-- A part of the usage message (R79). -/
  | usage (text : String)
  deriving DecidableEq, Repr

/-- What a finished command-line run has given to the world outside: its standard output (R82) and how it ended (R81).
The host does not hold it, and no step reads it (log 16). -/
structure RunResult where
  outcome : RunOutcome
  stdout : List OutLine
  status : Int
  deriving DecidableEq, Repr

/-- The command-line run of the host (R70 to R83). -/
inductive HostPhase where
  /-- No command-line run. -/
  | idle
  /-- The program was launched with this argument, if any, and has not checked it (R71). -/
  | launched (arg : Option String)
  /-- The argument was good and `DECODE.BOTH` is under way (R72). -/
  | decoding
  /-- The run is over, and this is the record of it. -/
  | exited (result : RunResult)
  deriving DecidableEq, Repr

/-- The whole machine: block ports, host, and the model's counter. -/
structure State where
  /-- Input port `addr_i[63:0]` (R16). -/
  addr_i : LinearAddress
  /-- Input port `mode_i` (R16), which carries the encoding of the operation (R41). -/
  mode_i : ModeBit
  /-- Output port `l4_idx_o[8:0]` (R22). -/
  l4_idx_o : Index
  /-- Output port `l3_idx_o[8:0]` (R22). -/
  l3_idx_o : Index
  /-- Output port `l2_idx_o[8:0]` (R22). -/
  l2_idx_o : Index
  /-- Output port `offset_o[20:0]` (R22). -/
  offset_o : Offset
  /-- The evaluation in flight (R69, R101). -/
  flight : Flight
  /-- The evaluations the host has still to drive: what is left of its program (R69). -/
  agenda : List Drive
  /-- The outputs the host has read, oldest first (R69); nothing is held from one run to the next (R82). -/
  held : List Reading
  /-- The host's command-line run (R70 to R83). -/
  host : HostPhase
  /-- THE MODEL'S OWN: how often an input has changed; indexes the free values of R102 (log 5). -/
  glitches : Nat
  deriving DecidableEq, Repr

/-- Why a step stops with a fault. There is no constructor: the block raises no exception, for any input (R84), and
the host's one error kind is a next state that prints the usage message (R79, R85). -/
inductive Fault
  deriving DecidableEq, Repr

/-- Why an instruction has no meaning. -/
inductive Refusal where
  /-- Raised by `exec` for an instruction without a meaning: safe, since nothing can be proved of its effect. No arm
  raises it: both rows of the opcode table have their meaning. -/
  | notModelled (mnemonic : String)
  deriving DecidableEq, Repr

/-- The machine after a system reset. The block has no reset input and no state to reset (R97); its outputs follow
the inputs present (R98). Input values: DESIGN CHOICE, log 2; outputs: what R24 gives from them, log 3; host: DESIGN
CHOICE, log 4; counter: DESIGN CHOICE, log 5. -/
def State.reset : State where
  addr_i := 0
  mode_i := 0
  l4_idx_o := 0
  l3_idx_o := 0
  l2_idx_o := 0
  offset_o := 0
  flight := .idle
  agenda := []
  held := []
  host := .idle
  glitches := 0

end Sys2Proof.Machine
end

