-- ==== Sys2Proof/Machine/HostText.lean ====
section
/-! DEFINITION. The command-line host's text: which argument gives an address (41_host_cli.md R71 to R75), what a run
writes (R76 to R80), and the spec's notation for a result (30_encoding.md R49). -/

namespace Sys2Proof.Machine

/-- A parser that meets the constraints of R74: the three texts R74 fixes, and `elsewhere` on every other text. Every
parser that meets the constraints is of this form. -/
def hostParseWith (elsewhere : String → Option Int) (text : String) : Option Int :=
  if text = "0xffffffff80200000" then some 18446744071564165120
  else if text = "0x0" then some 0
  else if text = "abc" then none
  else elsewhere text

/-- `HostParse` (R74): a parser that meets the constraints and of which nothing more is known. -/
def hostParse (text : String) : Option Int :=
  hostParseWith Config.hostParseElsewhere text

/-- What can be driven onto `addr_i` for a parsed value (R75): the value itself where it has 64 bits; outside that
range nothing under `reject`, and the low 64 bits (two's complement for a negative value) under `truncate64`. -/
def drivable (wide : HostWideInput) (v : Int) : Option LinearAddress :=
  if 0 ≤ v ∧ v < 2 ^ 64 then some (BitVec.ofInt 64 v)
  else match wide with
    | .reject => none
    | .truncate64 => some (BitVec.ofInt 64 v)

/-- The address a command-line argument stands for, or `none` for Invalid/Missing Input (R71, R73 to R75). -/
def argumentAddress : Option String → Option LinearAddress
  | none => none
  | some text => (hostParse text).bind (drivable Config.hostWideInput)

/-- The evaluations of `DECODE.BOTH a`: FourKiB first, then TwoMiB (R72). -/
def bothDrives (a : LinearAddress) : List Drive :=
  [⟨a, .fourKiB⟩, ⟨a, .twoMiB⟩]

/-- The four numeric lines of a result, in the order level-4, level-3, level-2 index, page offset (R76). -/
def valueLines (r : Indices) : List OutLine :=
  [.value (Config.labels 0) r.level4Index.toNat, .value (Config.labels 1) r.level3Index.toNat,
    .value (Config.labels 2) r.level2Index.toNat, .value (Config.labels 3) r.pageOffset.toNat]

/-- The block of lines for one result: the mode's header line, if there is one, and the numeric lines (R76, R78). -/
def resultBlock (m : Mode) (r : Indices) : List OutLine :=
  (Config.modeHeader m).toList.map .header ++ valueLines r

/-- The standard output of a successful run: one block for each result, a delimiter line between two (R76). -/
def reportLines : List Reading → List OutLine
  | [] => []
  | [r] => resultBlock r.drive.mode r.out
  | r :: rest => resultBlock r.drive.mode r.out ++ .delimiter :: reportLines rest

/-- The standard output of a run on Invalid/Missing Input: tool description, usage line, example line (R79). -/
def usageLines : List OutLine :=
  [.usage Config.usageDescription, .usage Config.usageLine, .usage Config.usageExample]

/-- The end of a run that took the usage path. A missing and a malformed argument are not told apart (R80). -/
def usageResult : RunResult where
  outcome := .usage
  stdout := usageLines
  status := Config.exitStatus .usage

/-- The end of a run that reports these results (R76, R81). -/
def ranResult (results : List Reading) : RunResult where
  outcome := .ran
  stdout := reportLines results
  status := Config.exitStatus .ran

/-- The two results of `DECODE.BOTH a` (R72). -/
def bothResults (a : LinearAddress) : List Reading :=
  (bothDrives a).map fun d => ⟨d, decodeAddress d.addr d.mode⟩

/-- A number in decimal digits: no sign, no leading zero, no grouping, 0 as `0` (R77). -/
def decimal (n : Nat) : List Char := Nat.toDigits 10 n

/-- The text of a line, without its terminator (R76). -/
def lineText : OutLine → String
  | .header text => text
  | .value label n => label ++ ":\t" ++ String.ofList (decimal n)
  | .delimiter => "---"
  | .usage text => text

/-- The characters written: each line ends with one newline character (R77). -/
def stdoutText (lines : List OutLine) : String :=
  lines.foldr (fun l rest => lineText l ++ "\n" ++ rest) ""

/-- The spec's notation for a result, the four outputs in decimal, in braces (R49). -/
def resultText (r : Indices) : String :=
  let number (n : Nat) : String := String.ofList (decimal n)
  "-> " ++ String.singleton (Char.ofNat 123) ++ number r.level4Index.toNat ++ ", " ++ number r.level3Index.toNat ++ ", "
    ++ number r.level2Index.toNat ++ ", " ++ number r.pageOffset.toNat ++ String.singleton (Char.ofNat 125)

end Sys2Proof.Machine
end

