-- ==== Sys2Proof/Machine/Ops.lean ====
section
/-! DEFINITION. The named operations over the ports and the host. There is no memory to access (20_memory.md R30) and
no exception to take or return from (60_exceptions.md R84, R88, R89). -/

namespace Sys2Proof.Machine

/-- What the output ports carry, as the record of R13. -/
def State.outputs (s : State) : Indices where
  level4Index := s.l4_idx_o
  level3Index := s.l3_idx_o
  level2Index := s.l2_idx_o
  pageOffset := s.offset_o

/-- The pair of values on the input ports. -/
def State.inputs (s : State) : Drive where
  addr := s.addr_i
  mode := modeOfBit s.mode_i

/-- The four output ports carry these values (R24). -/
def State.setOutputs (s : State) (r : Indices) : State :=
  { s with
    l4_idx_o := r.level4Index, l3_idx_o := r.level3Index, l2_idx_o := r.level2Index, offset_o := r.pageOffset }

/-- Once the outputs have settled, an evaluation in flight may be read (R101). -/
def Flight.settle : Flight → Flight
  | .settling => .ready
  | .ready => .ready
  | .idle => .idle

/-- The outputs settle to these values: every one is written (R24, R65, R101). -/
def State.settleOutputs (s : State) (r : Indices) : State :=
  { s.setOutputs r with flight := s.flight.settle }

/-- What the output ports carry `elapsed` units of time after the `n`th input change, to `d`: any value before `T_PD`
has passed (R102), the values of R24 from then on (R101). -/
def outputsAt (n : Nat) (d : Drive) (elapsed : Nat) : Indices :=
  if elapsed < Config.propagationDelay then Config.transientOutputs n elapsed else decodeAddress d.addr d.mode

/-- The outputs just after the inputs have become `d`: a change of an input starts a new evaluation, whose outputs
have not settled (R102); inputs that hold leave the outputs as they are (R24; log 15). The free value is taken at the
counter alone, so two instances whose counters are equal carry the same unsettled outputs, whatever pairs they were
driven with: DESIGN CHOICE, log 5, since R94 ties instances by nothing and R102 allows any values. -/
def State.outputsOnDrive (s : State) (d : Drive) : Indices :=
  if s.inputs = d then s.outputs else Config.transientOutputs s.glitches 0

/-- The host drives a pair onto the input ports (R69). -/
def State.driveInputs (s : State) (d : Drive) : State :=
  { s.setOutputs (s.outputsOnDrive d) with
    addr_i := d.addr, mode_i := modeBit d.mode, flight := .settling
    glitches := if s.inputs = d then s.glitches else s.glitches + 1 }

/-- The host takes the next evaluation off its agenda and drives it (R69). -/
def State.driveNext (s : State) (d : Drive) (rest : List Drive) : State :=
  { s.driveInputs d with agenda := rest }

/-- The host reads the outputs of the pair it drove (R69). -/
def State.readOutputs (s : State) : State :=
  { s with held := s.held ++ [⟨s.inputs, s.outputs⟩], flight := .idle }

/-- The host drives a value of `MODE`, with the address left as it is: an input change like any other, so that the
outputs are then unsettled unless `MODE` already had that value (R24, R102; logs 5 and 15). An evaluation that was in
flight is given up for the one begun here: its outputs are never read (DESIGN CHOICE, log 21). -/
def State.driveMode (s : State) (b : ModeBit) : State :=
  s.driveInputs ⟨s.addr_i, modeOfBit b⟩

/-- The host checks its argument before it drives the block (R71): with an address it begins `DECODE.BOTH` (R72);
otherwise it takes the usage path and drives no evaluation (R73, R79). Either way it holds nothing that was read before
(R82). -/
def State.checkArgument (s : State) (arg : Option String) : State :=
  match argumentAddress arg with
  | some a => { s with agenda := bothDrives a, held := [], host := .decoding }
  | none => { s with held := [], host := .exited usageResult }

/-- The host writes what it has read and ends its run (R72, R76). It keeps none of it for a later run (R82, log 16). -/
def State.report (s : State) : State :=
  { s with held := [], host := .exited (ranResult s.held) }

/-- FROM OUTSIDE (log 1). The command-line program is launched with its one argument, or without (R70, R73), and holds
nothing of an earlier run (R82, log 16). A launch before an earlier run has ended is left open by the spec: it overtakes
that run, whose remaining pairs are still driven but whose report is never written (DESIGN CHOICE, log 21). -/
def State.launch (s : State) (arg : Option String) : State :=
  { s with held := [], host := .launched arg }

/-- FROM OUTSIDE (log 1). The host is given evaluations to drive: a program (R69). Given while a command-line run is
decoding, they become part of that run (DESIGN CHOICE, log 21). -/
def State.schedule (s : State) (p : List Drive) : State :=
  { s with agenda := s.agenda ++ p }

end Sys2Proof.Machine
end

