-- ==== Sys2Proof/Machine/Slicing.lean ====
section
/-! DEFINITION. The meanings of the two operations, 40_decode.md R59 and R60. -/

namespace Sys2Proof.Machine

/-- DECODE.4K (R59): the four outputs from the address on `addr_i`. No flag, no exception, for every address. -/
def execDecode4K (s : State) : Host.Outcome State Fault Refusal :=
  .next (s.settleOutputs (indices4K s.addr_i))

/-- DECODE.2M (R60): the four outputs from the address on `addr_i`. No flag, no exception, for every address. -/
def execDecode2M (s : State) : Host.Outcome State Fault Refusal :=
  .next (s.settleOutputs (indices2M s.addr_i))

end Sys2Proof.Machine
end

