-- ==== Sys2Proof/Machine/Dispatch.lean ====
section
/-! DEFINITION. Which meaning each operation of the opcode map has (30_encoding.md R43). -/

namespace Sys2Proof.Machine

/-- One evaluation in the mode the operation names. -/
def exec (i : Instr) (s : State) : Host.Outcome State Fault Refusal :=
  match i with
  | .decode4K => Sys2Proof.Machine.execDecode4K s
  | .decode2M => Sys2Proof.Machine.execDecode2M s

end Sys2Proof.Machine
end

