-- ==== Sys2Proof/Machine/Step.lean ====
section
/-! DEFINITION. One step of the machine: an evaluation of the block, or one action of its host (41_host_cli.md R69).
A step is no unit of time (log 6). -/

namespace Sys2Proof.Machine

/-- One evaluation: the operation selected by `mode_i`, applied to `addr_i` (R24, R43). -/
def State.evaluate (s : State) : Host.Outcome State Fault Refusal :=
  exec (decodeMode s.mode_i) s

/-- One step. An evaluation in flight is finished first: the outputs settle, then the host reads them (R69, R101).
With none in flight the host drives the next pair of its agenda; with no pair left it goes on with its command-line
run (R71, R72). When the host has nothing to do the block goes on evaluating the inputs that hold (R24, log 14). -/
def step (s : State) : Host.Outcome State Fault Refusal :=
  match s.flight with
  | .settling => s.evaluate
  | .ready => .next s.readOutputs
  | .idle =>
    match s.agenda with
    | d :: rest => .next (s.driveNext d rest)
    | [] =>
      match s.host with
      | .launched arg => .next (s.checkArgument arg)
      | .decoding => .next s.report
      | .idle => s.evaluate
      | .exited _ => s.evaluate

/-- FROM OUTSIDE (log 1). The host drives the operation of table word `w` onto `mode_i`, so that the next step
evaluates it. Until then the outputs are what any drive leaves on them: the free value of R102 where `mode_i` changes
(log 5), what they were where it does not (log 15). Format `SEL` is one bit long (R41), so `MODE` is bit 0 of `w`,
whatever `nbits`. -/
def State.withFetchWord (s : State) (_nbits w : Nat) : State :=
  s.driveMode (BitVec.ofNat 1 w)

end Sys2Proof.Machine
end

