-- ==== Sys2Proof/Safety.lean ====
section
/-! DEFINITION. What holds of a machine that runs as the spec says: the invariant every step keeps, and the terms the
statements use. -/

namespace Sys2Proof.Machine

/-- The pair whose evaluation is in flight, if any. -/
def State.inFlight (s : State) : List Drive :=
  match s.flight with
  | .idle => []
  | .settling => [s.inputs]
  | .ready => [s.inputs]

/-- Unless they are settling, the outputs are what `Decode` gives from the inputs (R24). -/
def State.Coherent (s : State) : Prop :=
  s.flight ≠ .settling → s.outputs = decodeAddress s.addr_i (modeOfBit s.mode_i)

/-- What the host holds of a pair is what `Decode` gives for that pair (R24, R69). -/
def Reading.Sound (r : Reading) : Prop :=
  r.out = decodeAddress r.drive.addr r.drive.mode

/-- The invariant. -/
structure State.Inv (s : State) : Prop where
  /-- Settled outputs are a function of the inputs (R24). -/
  coherent : s.Coherent
  /-- The host has read only settled outputs (R69, R101). -/
  heldSound : ∀ r ∈ s.held, r.Sound
  /-- During a run, what was read, what is in flight and what is still to drive make up `DECODE.BOTH` of one address
  (R72). -/
  decoding : s.host = .decoding →
    ∃ a, s.held.map Reading.drive ++ s.inFlight ++ s.agenda = bothDrives a
  /-- A finished run either took the usage path or reported both results of one address (R76, R79, R87). -/
  exited : ∀ r, s.host = .exited r → r = usageResult ∨ ∃ a, r = ranResult (bothResults a)

/-- Whether a line is numeric (R79). -/
def OutLine.isNumeric : OutLine → Bool
  | .value _ _ => true
  | .header _ => false
  | .delimiter => false
  | .usage _ => false

/-- Whether a line is a part of the usage message (R79). -/
def OutLine.isUsage : OutLine → Bool
  | .usage _ => true
  | .value _ _ => false
  | .header _ => false
  | .delimiter => false

/-- The outputs after operation `i` on address `a`, on a machine otherwise in state `s`. -/
def outputsAfter (i : Instr) (a : LinearAddress) (s : State) : Option Indices :=
  match exec i { s with addr_i := a } with
  | .next t => some t.outputs
  | .fault _ => none
  | .refused _ => none

/-- The state after a step, or the same state where the machine stops. -/
def advance (s : State) : State :=
  match step s with
  | .next t => t
  | .fault _ => s
  | .refused _ => s

/-- Two instances of the machine, stepped in the order of a schedule: `false` steps the first, `true` the second
(R94, R104). -/
def interleave : List Bool → State × State → State × State
  | [], p => p
  | false :: rest, p => interleave rest (advance p.1, p.2)
  | true :: rest, p => interleave rest (p.1, advance p.2)

/-- What reading the settled outputs of a pair gives (R24). -/
def readingOf (d : Drive) : Reading :=
  ⟨d, decodeAddress d.addr d.mode⟩

/-- `n` steps of the machine. -/
def runSteps (n : Nat) (s : State) : Host.Outcome State Fault Refusal :=
  Host.Core.run Sys2Proof.core n s

end Sys2Proof.Machine
end

