-- ==== Sys2Proof/Certificates/Slice0/Obligations.lean ====
section
/-! DEFINITION. The statements for the provers. Rules R<n> are those of spec/; "log n" is notes/assumptions/n.md. -/

open Sys2Proof Sys2Proof.Machine

/-- R59, whole: encoding, pseudocode (which is also the frame: every field not named is that of `s`, so no flag and no
memory is written and no exception is taken), corner cases and example. THE MODEL'S CHOICES: the clause on `flight`, the
model's own account of settling (log 4, DESIGN CHOICE) in one step (log 6, DESIGN CHOICE); and that in a state whose
`mode_i` does not select DECODE.4K the operation is done all the same and leaves `mode_i` alone (log 18, DESIGN
CHOICE). -/
def Obligations.Decode4KWritesSlicesOfItsAddress : Prop :=
  decodeMode 0#1 = .decode4K ∧
  (∀ s : State, exec .decode4K s = .next
    { s with
      l4_idx_o := ((s.addr_i >>> 39) &&& 0x1FF#64).setWidth 9
      l3_idx_o := ((s.addr_i >>> 30) &&& 0x1FF#64).setWidth 9
      l2_idx_o := ((s.addr_i >>> 21) &&& 0x1FF#64).setWidth 9
      offset_o := (s.addr_i &&& 0xFFF#64).setWidth 21
      flight := if s.flight = .settling then .ready else s.flight }) ∧
  (∀ s : State,
    outputsAfter .decode4K 0 s = some ⟨0, 0, 0, 0⟩ ∧
    outputsAfter .decode4K 0xFFFFFFFFFFFFFFFF#64 s = some ⟨511, 511, 511, 4095⟩ ∧
    (∀ a b : LinearAddress, a &&& 0x0000FFFFFFFFFFFF#64 = b &&& 0x0000FFFFFFFFFFFF#64 →
      outputsAfter .decode4K a s = outputsAfter .decode4K b s) ∧
    (∀ a b : LinearAddress, a &&& 0xFFFFFFFFFFE00FFF#64 = b &&& 0xFFFFFFFFFFE00FFF#64 →
      outputsAfter .decode4K a s = outputsAfter .decode4K b s) ∧
    (∀ (a : LinearAddress) (r : Indices), outputsAfter .decode4K a s = some r →
      r.pageOffset.extractLsb 20 12 = 0) ∧
    outputsAfter .decode4K 0x123456789ABCDEF0#64 s = some ⟨172, 482, 213, 3824⟩)

/-- R60, whole, in the form of the statement about DECODE.4K. An address that is not 2MiB-aligned is covered by the
equation, which holds for every address. THE MODEL'S CHOICES are those of that statement: the clause on `flight` (logs 4
and 6, DESIGN CHOICE), and that in a state whose `mode_i` does not select DECODE.2M the operation is done all the same and
leaves `mode_i` alone (log 18, DESIGN CHOICE). -/
def Obligations.Decode2MWritesSlicesOfItsAddress : Prop :=
  decodeMode 1#1 = .decode2M ∧
  (∀ s : State, exec .decode2M s = .next
    { s with
      l4_idx_o := ((s.addr_i >>> 39) &&& 0x1FF#64).setWidth 9
      l3_idx_o := ((s.addr_i >>> 30) &&& 0x1FF#64).setWidth 9
      l2_idx_o := ((s.addr_i >>> 21) &&& 0x1FF#64).setWidth 9
      offset_o := (s.addr_i &&& 0x1FFFFF#64).setWidth 21
      flight := if s.flight = .settling then .ready else s.flight }) ∧
  (∀ s : State,
    outputsAfter .decode2M 0 s = some ⟨0, 0, 0, 0⟩ ∧
    outputsAfter .decode2M 0xFFFFFFFFFFFFFFFF#64 s = some ⟨511, 511, 511, 2097151⟩ ∧
    (∀ a b : LinearAddress, a &&& 0x0000FFFFFFFFFFFF#64 = b &&& 0x0000FFFFFFFFFFFF#64 →
      outputsAfter .decode2M a s = outputsAfter .decode2M b s) ∧
    outputsAfter .decode2M 0x123456789ABCDEF0#64 s = some ⟨172, 482, 213, 1892080⟩)

/-- R65: the address input is never written, and every output is written, whatever it carried before. THE MODEL'S
CHOICES: that an operation leaves `mode_i` alone, whatever it carries (log 18, DESIGN CHOICE), the host's fields (log 4,
DESIGN CHOICE) and the model's counter (log 5, DESIGN CHOICE), of none of which R65 speaks. Nothing is said here of `flight`, which an operation settles (log 4): the
equations of the statements about R59 and R60 say what becomes of it. -/
def Obligations.OperationsWriteEveryOutputAndLeaveInputsAndHostAlone : Prop :=
  ∀ (i : Instr) (s : State),
    (∀ t, exec i s = .next t →
      t.addr_i = s.addr_i ∧ t.mode_i = s.mode_i ∧ t.agenda = s.agenda ∧ t.held = s.held ∧ t.host = s.host ∧
        t.glitches = s.glitches) ∧
    (∀ (before : Indices) (t u : State), exec i s = .next t → exec i (s.setOutputs before) = .next u →
      u.outputs = t.outputs)

/-- A step runs the decoded operation: when an evaluation is in flight, and when the host has nothing to do, a step is
exactly the operation that `mode_i` selects. That `mode_i` selects it is R43, and that an evaluation is of the inputs
present is R24. THE MODEL'S CHOICES: that settling is one step (log 6, DESIGN CHOICE), and that a step with the host at
rest is an evaluation (log 14, DEDUCED), where R24 says only that an input change starts a new one. -/
def Obligations.StepRunsTheSelectedOperation : Prop :=
  ∀ s : State,
    (s.flight = .settling ∨ (s.flight = .idle ∧ s.agenda = [] ∧ (s.host = .idle ∨ ∃ r, s.host = .exited r))) →
    step s = exec (decodeMode s.mode_i) s

/-- The interface that loads an operation: the word a table row gives is evaluated by the very next step (log 1). -/
def Obligations.LoadedWordIsEvaluatedNext : Prop :=
  ∀ (s : State) (nbits w : Nat) (i : Instr), decodeTableWord nbits w = some i →
    step (s.withFetchWord nbits w) = exec i (s.withFetchWord nbits w)

/-- R43 on the words written out: MODE = 0 is DECODE.4K, MODE = 1 is DECODE.2M, as values of `mode_i`, as bytes and as
table words (the byte layout is the model's, log 7). -/
def Obligations.ModeWordsSelectTheirOperations : Prop :=
  decodeMode 0#1 = .decode4K ∧ decodeMode 1#1 = .decode2M ∧
  decodeBytes [0b00000000#8] = .ok (.decode4K, []) ∧ decodeBytes [0b00000001#8] = .ok (.decode2M, []) ∧
  decodeTableWord 8 0 = some .decode4K ∧ decodeTableWord 8 1 = some .decode2M

/-- R46: both values of MODE select an operation, and that operation completes in every state. -/
def Obligations.EveryModeValueSelectsAnOperationThatCompletes : Prop :=
  ∀ b : ModeBit, ∃ i : Instr, decodeMode b = i ∧ encodeMode i = b ∧ ∀ s : State, ∃ t, exec i s = .next t

/-- Decode and encode agree both ways, over every list of bytes: the decoder accepts exactly what the encoder writes
(the byte layout is the model's, log 7). -/
def Obligations.DecodedBytesAreExactlyEncodedOperations : Prop :=
  ∀ (bytes rest : List Byte) (i : Instr),
    decodeBytes bytes = .ok (i, rest) ↔ (i.wf = true ∧ bytes = encode i ++ rest)

/-- R52, R53 and R54: each index is its nine address bits, read as one number and bit by bit, and no other. -/
def Obligations.IndexSlicersReadTheirNineBits : Prop :=
  (∀ a : LinearAddress,
    sliceL4 a = a.extractLsb 47 39 ∧ (sliceL4 a).toNat = a.toNat / 2 ^ 39 % 512 ∧ (sliceL4 a).toNat ≤ 511 ∧
    sliceL3 a = a.extractLsb 38 30 ∧ (sliceL3 a).toNat = a.toNat / 2 ^ 30 % 512 ∧ (sliceL3 a).toNat ≤ 511 ∧
    sliceL2 a = a.extractLsb 29 21 ∧ (sliceL2 a).toNat = a.toNat / 2 ^ 21 % 512 ∧ (sliceL2 a).toNat ≤ 511) ∧
  sliceL4 0x0000008000000000#64 = 1 ∧ sliceL4 0x0000FF8000000000#64 = 511 ∧
  sliceL3 0x0000000040000000#64 = 1 ∧ sliceL3 0xffffffff80200000#64 = 510 ∧
  sliceL2 0x0000000000200000#64 = 1 ∧ sliceL2 0x000000003FE00000#64 = 511

/-- R55 and R56: each offset is its low address bits and no other. -/
def Obligations.OffsetSlicersReadTheLowBits : Prop :=
  (∀ a : LinearAddress,
    sliceOff4K a = a.extractLsb 11 0 ∧ (sliceOff4K a).toNat = a.toNat % 4096 ∧ (sliceOff4K a).toNat ≤ 4095 ∧
    sliceOff2M a = a.extractLsb 20 0 ∧ (sliceOff2M a).toNat = a.toNat % 2097152 ∧
    (sliceOff2M a).toNat ≤ 2097151) ∧
  sliceOff4K 0x00000000001FFFFF#64 = 4095 ∧ sliceOff2M 0x00000000001FF000#64 = 2093056

/-- R57: in FourKiB mode the bits of the level-1 index reach no output; in TwoMiB mode they are `offset_o[20:12]`. -/
def Obligations.LevelOneIndexIsOutputOnlyAsOffset : Prop :=
  (∀ a : LinearAddress, sliceL1 a = a.extractLsb 20 12) ∧
  (∀ s s' t t' : State, s.addr_i &&& ~~~0x1FF000#64 = s'.addr_i &&& ~~~0x1FF000#64 →
    exec .decode4K s = .next t → exec .decode4K s' = .next t' → t.outputs = t'.outputs) ∧
  (∀ s t : State, exec .decode4K s = .next t → t.offset_o = (s.addr_i.extractLsb 11 0).setWidth 21) ∧
  (∀ s t : State, exec .decode2M s = .next t → t.offset_o.extractLsb 20 12 = sliceL1 s.addr_i)

/-- R58: from one address both operations give the same three indices; the offset differs for some address. -/
def Obligations.OnlyTheOffsetDependsOnTheMode : Prop :=
  (∀ s t u : State, exec .decode4K s = .next t → exec .decode2M s = .next u →
    t.l4_idx_o = u.l4_idx_o ∧ t.l3_idx_o = u.l3_idx_o ∧ t.l2_idx_o = u.l2_idx_o) ∧
  (∃ s t u : State, exec .decode4K s = .next t ∧ exec .decode2M s = .next u ∧ t.offset_o ≠ u.offset_o)

/-- R61: the output ranges after either operation. -/
def Obligations.OutputsStayInTheirRanges : Prop :=
  (∀ (i : Instr) (s t : State), exec i s = .next t →
    t.l4_idx_o.toNat ≤ 511 ∧ t.l3_idx_o.toNat ≤ 511 ∧ t.l2_idx_o.toNat ≤ 511) ∧
  (∀ s t : State, exec .decode4K s = .next t → t.offset_o.toNat ≤ 4095) ∧
  (∀ s t : State, exec .decode2M s = .next t → t.offset_o.toNat ≤ 2097151)

/-- R23: the 12-bit offset is zero-extended onto the 21-bit port, and no port carries the address bits [20:12]. -/
def Obligations.FourKiBOffsetIsZeroExtendedOntoThePort : Prop :=
  (∀ s t : State, exec .decode4K s = .next t →
    t.offset_o.extractLsb 20 12 = 0 ∧ t.offset_o = (s.addr_i.extractLsb 11 0).setWidth 21 ∧
    t.offset_o.toNat = s.addr_i.toNat % 4096 ∧ t.offset_o.toNat ≤ 4095) ∧
  (∀ (s t u : State) (middle : Index), exec .decode4K s = .next t →
    exec .decode4K { s with addr_i := s.addr_i ^^^ (middle.setWidth 64 <<< 12) } = .next u → u.outputs = t.outputs)

/-- R63: two evaluations of the same pair give the same outputs, whatever else the two machines hold, and evaluating
again gives them again. -/
def Obligations.OutputsDependOnTheInputsAlone : Prop :=
  ∀ s s' t t' : State, s.inputs = s'.inputs → s.evaluate = .next t → s'.evaluate = .next t' →
    t.outputs = t'.outputs ∧ ∃ u, t.evaluate = .next u ∧ u.outputs = t.outputs

/-- R64: what the outputs keep of the address and what they lose. In FourKiB mode `offset_o` is `{9'b0, offset_o[11:0]}`
by the first half of that clause, so `rebuild` is the rule's concatenation there too. -/
def Obligations.OutputsRebuildTheDecodedAddress : Prop :=
  (∀ s t : State, exec .decode2M s = .next t → rebuild t.outputs = s.addr_i.setWidth 48) ∧
  (∀ s t : State, exec .decode4K s = .next t →
    t.offset_o.extractLsb 20 12 = 0 ∧ rebuild t.outputs = s.addr_i.setWidth 48 &&& ~~~0x1FF000#48) ∧
  (∀ (i : Instr) (s s' t t' : State), s.addr_i.extractLsb 47 0 = s'.addr_i.extractLsb 47 0 →
    exec i s = .next t → exec i s' = .next t' → t.outputs = t'.outputs)

/-- R26 and R37: address bits [63:48] reach no output, so an address and its canonical twin (bits [63:48] a copy of bit
47) give the same outputs; neither is refused. -/
def Obligations.NonCanonicalAddressDecodesLikeItsCanonicalTwin : Prop :=
  ∀ (i : Instr) (s : State), ∃ t u : State,
    exec i s = .next t ∧ exec i { s with addr_i := (s.addr_i.extractLsb 47 0).signExtend 64 } = .next u ∧
    t.outputs = u.outputs

/-- R35: the span of one entry of each level, as the addresses that select it. -/
def Obligations.EachIndexSelectsASpanOfTheAddressSpace : Prop :=
  Level.level4.span = 2 ^ 39 ∧ Level.level3.span = 2 ^ 30 ∧ Level.level2.span = 2 ^ 21 ∧ Level.level1.span = 2 ^ 12 ∧
  2 ^ 48 = 512 * Level.level4.span ∧
  ∀ (l : Level) (v : Index),
    (∃ a : LinearAddress, l.index a = v) ∧
    ∀ a : LinearAddress, l.index a = v ↔ a.toNat / l.span % 512 = v.toNat

/-- R36: the block outputs all of a TwoMiB page's index path, and all of a FourKiB page's but the level-1 index. -/
def Obligations.OutputsAreTheIndexPathLessLevelOne : Prop :=
  (∀ s t : State, exec .decode4K s = .next t →
    indexPath s.addr_i .fourKiB = reportedPath t.outputs ++ [sliceL1 s.addr_i]) ∧
  (∀ s t : State, exec .decode2M s = .next t → indexPath s.addr_i .twoMiB = reportedPath t.outputs)

/-- R84, over the whole machine: no operation, and no step, ends in a fault or a refusal, in any state. -/
def Obligations.NoStepStops : Prop :=
  (∀ (i : Instr) (s : State), ∃ t, exec i s = .next t) ∧ ∀ s : State, ∃ t, step s = .next t

/-- THE MODEL'S CHOICE where the spec gives no value (logs 2 to 5): the inputs at reset. The outputs then follow R24
from the inputs present, as R98 says of them after a reset. -/
def Obligations.ResetOutputsFollowTheInputsPresent : Prop :=
  State.reset.addr_i = 0 ∧ State.reset.mode_i = 0 ∧ State.reset.flight = .idle ∧ State.reset.agenda = [] ∧
  State.reset.held = [] ∧ State.reset.host = .idle ∧
  State.reset.outputs = decodeAddress State.reset.addr_i (modeOfBit State.reset.mode_i)

/-- The invariant of `Safety.lean` holds after reset (which rests on logs 2 to 5). -/
def Obligations.ResetMeetsTheInvariant : Prop :=
  State.reset.Inv

/-- HEADLINE. Every step keeps the invariant, from every state that has it: settled outputs are `Decode` of the
inputs, the host holds only such outputs, a run in progress is on its way through `DECODE.BOTH` of one address, and a
finished run took the usage path or reported both results of one address. -/
def Obligations.EveryStepKeepsTheInvariant : Prop :=
  ∀ s t : State, s.Inv → step s = .next t → t.Inv

/-- R24: settled outputs stay as they are while the inputs hold. -/
def Obligations.SettledOutputsStayWhileTheInputsHold : Prop :=
  ∀ s t : State, s.Inv → s.flight ≠ .settling → step s = .next t → t.inputs = s.inputs →
    t.outputs = s.outputs ∧ t.outputs = decodeAddress s.addr_i (modeOfBit s.mode_i)

/-- R69: the block never starts an action; the inputs change only when the host drives the next pair of its agenda. -/
def Obligations.OnlyTheHostChangesTheInputs : Prop :=
  ∀ s t : State, step s = .next t → t.inputs ≠ s.inputs →
    s.flight = .idle ∧ s.agenda = t.inputs :: t.agenda ∧ t.flight = .settling ∧ t.held = s.held ∧ t.host = s.host

/-- R69 and R102: driving puts the pair on the input ports and leaves what the host holds. The outputs are then any
value (of which nothing is said here), except that inputs that hold leave them as they were (log 15). -/
def Obligations.DrivingPutsThePairOnTheInputs : Prop :=
  ∀ (s : State) (d : Drive) (rest : List Drive), s.flight = .idle → s.agenda = d :: rest →
    ∃ t, step s = .next t ∧ t.inputs = d ∧ t.mode_i = modeBit d.mode ∧ t.agenda = rest ∧ t.flight = .settling ∧
      t.held = s.held ∧ t.host = s.host ∧ (s.inputs = d → t.outputs = s.outputs)

/-- R101 and R102: whatever a step adds to what the host holds was read after the outputs had settled, and is `Decode`
of the pair it stands beside. -/
def Obligations.TheHostReadsOnlySettledOutputs : Prop :=
  ∀ (s t : State) (r : Reading), s.Inv → step s = .next t → r ∈ t.held → r ∉ s.held →
    s.flight = .ready ∧ r = readingOf s.inputs ∧ t.held = s.held ++ [r]

/-- R101: from `T_PD` on, for every value of `T_PD`, the outputs are those of R24, and these are what an evaluation of
the model leaves on the ports. -/
def Obligations.OutputsSettleWithinThePropagationDelay : Prop :=
  (∀ (n elapsed : Nat) (d : Drive), Config.propagationDelay ≤ elapsed →
    outputsAt n d elapsed = decodeAddress d.addr d.mode) ∧
  (∀ (s t : State) (n elapsed : Nat), s.flight = .settling → step s = .next t → Config.propagationDelay ≤ elapsed →
    t.outputs = outputsAt n s.inputs elapsed)

/-- R69 and R104: the host drives any sequence of evaluations to its end and then holds for each pair, in order, what
`Decode` gives for that pair alone. That each pair takes three steps (drive, settle, read) is THE MODEL'S CHOICE (log 6,
DESIGN CHOICE), as is the order in which a step takes them (log 20, DEDUCED). -/
def Obligations.SequenceOfEvaluationsReadsDecodeOfEachPair : Prop :=
  ∀ s : State, s.flight = .idle →
    ∃ t, runSteps (3 * s.agenda.length) s = .next t ∧
      t.held = s.held ++ s.agenda.map readingOf ∧ t.agenda = [] ∧ t.flight = .idle ∧ t.host = s.host

/-- R94 and R104: two instances stepped in any order share nothing; each reads what `Decode` gives for its own pairs,
once the schedule has given it steps enough. THE MODEL'S CHOICES: that three steps a pair are enough (log 6, DESIGN
CHOICE), and that two instances are two machines which `interleave` steps in the order of a schedule (log 13, DESIGN
CHOICE). -/
def Obligations.InterleavedInstancesReadTheirOwnResults : Prop :=
  ∀ (schedule : List Bool) (a b : State),
    a.flight = .idle → a.host = .idle → a.held = [] → 3 * a.agenda.length ≤ schedule.count false →
    b.flight = .idle → b.host = .idle → b.held = [] → 3 * b.agenda.length ≤ schedule.count true →
    (interleave schedule (a, b)).1.held = a.agenda.map readingOf ∧
      (interleave schedule (a, b)).2.held = b.agenda.map readingOf

/-- R76, R72 and R82: from any state with nothing in flight and an empty agenda, a run on an argument that gives an
address has, seven steps after its launch, read the two results of that address and nothing else; the next step ends it
with exactly the two labelled blocks written, FourKiB first, separated by one delimiter line, and nothing held. THE
MODEL'S CHOICES: the launch from outside (log 1, DESIGN CHOICE), the eight steps (log 6, DESIGN CHOICE), the whole output
written in the last of them (log 11, DEDUCED), one instance used twice (log 12, DESIGN CHOICE), and the points at which
what is held is dropped (log 16, DEDUCED). -/
def Obligations.RunOnAnAddressReportsBothResults : Prop :=
  (∀ (s : State) (arg : Option String) (a : LinearAddress),
    s.flight = .idle → s.agenda = [] → argumentAddress arg = some a →
    ∃ u t, runSteps 7 (s.launch arg) = .next u ∧
      u.held = [⟨⟨a, .fourKiB⟩, indices4K a⟩, ⟨⟨a, .twoMiB⟩, indices2M a⟩] ∧
      step u = .next t ∧ runSteps 8 (s.launch arg) = .next t ∧ t.held = [] ∧
      t.host = .exited
        { outcome := .ran
          stdout :=
            (Config.modeHeader .fourKiB).toList.map OutLine.header ++
            [.value (Config.labels 0) (indices4K a).level4Index.toNat,
              .value (Config.labels 1) (indices4K a).level3Index.toNat,
              .value (Config.labels 2) (indices4K a).level2Index.toNat,
              .value (Config.labels 3) (indices4K a).pageOffset.toNat] ++
            [.delimiter] ++
            (Config.modeHeader .twoMiB).toList.map OutLine.header ++
            [.value (Config.labels 0) (indices2M a).level4Index.toNat,
              .value (Config.labels 1) (indices2M a).level3Index.toNat,
              .value (Config.labels 2) (indices2M a).level2Index.toNat,
              .value (Config.labels 3) (indices2M a).pageOffset.toNat]
          status := Config.exitStatus .ran }) ∧
  (∀ (label : String) (n : Nat), lineText (.value label n) = label ++ ":\t" ++ String.ofList (decimal n)) ∧
  lineText .delimiter = "---"

/-- R73, R79, R80 and R82: on a missing or unparseable argument the run ends at once with the three-part usage message
and no numeric line; nothing is driven, nothing is held, and the two kinds of bad argument leave the same state. THE
MODEL'S CHOICES: the launch from outside (log 1, DESIGN CHOICE), the one step (log 6, DESIGN CHOICE), the three parts as
three entries of the output (log 10, DESIGN CHOICE), that held readings are dropped in that step (log 16, DEDUCED). That
no line is numeric is true BY KIND OF LINE ONLY (log 11, DEDUCED, unsafe): nothing is said of the characters of the usage
text, which is opaque. -/
def Obligations.RunOnInvalidInputPrintsUsageAndDrivesNothing : Prop :=
  argumentAddress none = none ∧
  (∀ text : String, hostParse text = none → argumentAddress (some text) = none) ∧
  (∀ (s : State) (arg : Option String), s.flight = .idle → s.agenda = [] → argumentAddress arg = none →
    step (s.launch arg) = .next
      { s with
        held := []
        host := .exited
          { outcome := .usage
            stdout := [.usage Config.usageDescription, .usage Config.usageLine, .usage Config.usageExample]
            status := Config.exitStatus .usage } }) ∧
  usageLines.any OutLine.isNumeric = false

/-- R82: the host keeps nothing between runs. Two runs on the same argument, launched from any two states with nothing in
flight and an empty agenda, whatever earlier runs left in them, end alike, and neither leaves anything held. THE MODEL'S
CHOICES: the launch from outside (log 1, DESIGN CHOICE), the eight steps, within which a usage run has long ended (log 6,
DESIGN CHOICE), and the record of the finished run, which the host does not hold (log 16, DEDUCED). -/
def Obligations.RunsKeepNothingBetweenThem : Prop :=
  ∀ (s s' : State) (arg : Option String),
    s.flight = .idle → s.agenda = [] → s'.flight = .idle → s'.agenda = [] →
    ∃ (t t' : State) (r : RunResult),
      runSteps 8 (s.launch arg) = .next t ∧ runSteps 8 (s'.launch arg) = .next t' ∧
      t.host = .exited r ∧ t'.host = .exited r ∧ t.held = [] ∧ t'.held = [] ∧ t.agenda = [] ∧ t'.agenda = []

/-- R74: the parser meets the three constraints, and the parsers the model ranges over are exactly those that do
(results below 0, which R74's type does not have, are admitted too: log 8). -/
def Obligations.HostParseIsAnyParserMeetingTheConstraints : Prop :=
  (hostParse "0xffffffff80200000" = some 18446744071564165120 ∧ hostParse "0x0" = some 0 ∧ hostParse "abc" = none) ∧
  ∀ p : String → Option Int,
    (p "0xffffffff80200000" = some 18446744071564165120 ∧ p "0x0" = some 0 ∧ p "abc" = none) ↔
      ∃ elsewhere, hostParseWith elsewhere = p

/-- R75: a parsed value of 64 bits is driven as it is; one outside 0 to 2^64 - 1 gives no address under `reject`, which
makes the argument Invalid/Missing Input, and gives its low 64 bits, two's complement for a negative value, under
`truncate64`. The setting is the parameter `HOST_WIDE_INPUT`. -/
def Obligations.WideParsedValuesAreRejectedOrTruncated : Prop :=
  (∀ v : Int,
    (0 ≤ v ∧ v < 2 ^ 64 → ∀ wide, ∃ a, drivable wide v = some a ∧ (a.toNat : Int) = v) ∧
    (¬(0 ≤ v ∧ v < 2 ^ 64) → drivable .reject v = none ∧
      ∃ a, drivable .truncate64 v = some a ∧ (a.toNat : Int) = v % 2 ^ 64)) ∧
  ∀ (text : String) (v : Int), hostParse text = some v →
    argumentAddress (some text) = drivable Config.hostWideInput v

/-- R77: a decimal value is its digits, most significant first, with no leading zero (0 is `0`), and each line ends with
one newline. The newline clause is R77 (decision D23) of the header, numeric and delimiter lines; of a part of the usage
message, whose layout R79 does not give, it is THE MODEL'S CHOICE (log 10, DESIGN CHOICE). -/
def Obligations.DecimalValuesHaveNoLeadingZeros : Prop :=
  decimal 0 = ['0'] ∧
  (∀ n : Nat,
    (∀ c ∈ decimal n, '0' ≤ c ∧ c ≤ '9') ∧ (0 < n → (decimal n).head? ≠ some '0') ∧
    (decimal n).foldl (fun v c => 10 * v + (c.toNat - '0'.toNat)) 0 = n) ∧
  stdoutText [] = "" ∧
  ∀ (l : OutLine) (rest : List OutLine), stdoutText (l :: rest) = lineText l ++ "\n" ++ stdoutText rest

/-- In no finished run do a numeric line and a usage line appear together, which is how the model says R87's 'no decoded
output and no usage message ever appear together'. THE MODEL'S CHOICE: the two are told apart BY KIND OF LINE and not by
their characters (log 11, DEDUCED, unsafe). -/
def Obligations.UsageAndNumericLinesNeverAppearTogether : Prop :=
  ∀ (s : State) (r : RunResult), s.Inv → s.host = .exited r →
    ¬(r.stdout.any OutLine.isUsage = true ∧ r.stdout.any OutLine.isNumeric = true)

/-- R49 and R50: a line of syntax is driven as its operation's mode and its address, `DECODE.BOTH` as DECODE.4K then
DECODE.2M; a line whose address has more than 64 bits is driven as nothing. -/
def Obligations.SyntaxLinesExpandToDrivenPairs : Prop :=
  ∀ addr : Nat,
    (addr < 2 ^ 64 →
      (Assembly.op .decode4K addr).drives = some [⟨BitVec.ofNat 64 addr, .fourKiB⟩] ∧
      (Assembly.op .decode2M addr).drives = some [⟨BitVec.ofNat 64 addr, .twoMiB⟩] ∧
      (Assembly.decodeBoth addr).drives = some (bothDrives (BitVec.ofNat 64 addr))) ∧
    (2 ^ 64 ≤ addr → (Assembly.decodeBoth addr).drives = none ∧ ∀ i, (Assembly.op i addr).drives = none)
end

