-- ==== Sys2Proof/Laws/State.lean ====
section
/-! SUPPORT. One lemma per field per update, each true by unfolding or by
the round trip of MODE, so that no later proof unfolds a record update. -/

namespace Sys2Proof.Machine

@[simp] theorem modeOfBit_modeBit (m : Mode) : modeOfBit (modeBit m) = m := by
  cases m <;> rfl

@[simp] theorem modeBit_modeOfBit (b : ModeBit) : modeBit (modeOfBit b) = b := by
  revert b; decide

@[simp] theorem outputs_setOutputs (s : State) (r : Indices) : (s.setOutputs r).outputs = r := rfl
@[simp] theorem setOutputs_addr_i (s : State) (r : Indices) : (s.setOutputs r).addr_i = s.addr_i := rfl
@[simp] theorem setOutputs_mode_i (s : State) (r : Indices) : (s.setOutputs r).mode_i = s.mode_i := rfl
@[simp] theorem setOutputs_inputs (s : State) (r : Indices) : (s.setOutputs r).inputs = s.inputs := rfl
@[simp] theorem setOutputs_flight (s : State) (r : Indices) : (s.setOutputs r).flight = s.flight := rfl
@[simp] theorem setOutputs_agenda (s : State) (r : Indices) : (s.setOutputs r).agenda = s.agenda := rfl
@[simp] theorem setOutputs_held (s : State) (r : Indices) : (s.setOutputs r).held = s.held := rfl
@[simp] theorem setOutputs_host (s : State) (r : Indices) : (s.setOutputs r).host = s.host := rfl
@[simp] theorem setOutputs_glitches (s : State) (r : Indices) : (s.setOutputs r).glitches = s.glitches := rfl

@[simp] theorem settleOutputs_outputs (s : State) (r : Indices) : (s.settleOutputs r).outputs = r := rfl
@[simp] theorem settleOutputs_addr_i (s : State) (r : Indices) : (s.settleOutputs r).addr_i = s.addr_i := rfl
@[simp] theorem settleOutputs_mode_i (s : State) (r : Indices) : (s.settleOutputs r).mode_i = s.mode_i := rfl
@[simp] theorem settleOutputs_inputs (s : State) (r : Indices) : (s.settleOutputs r).inputs = s.inputs := rfl
@[simp] theorem settleOutputs_flight (s : State) (r : Indices) :
    (s.settleOutputs r).flight = s.flight.settle := rfl
@[simp] theorem settleOutputs_agenda (s : State) (r : Indices) : (s.settleOutputs r).agenda = s.agenda := rfl
@[simp] theorem settleOutputs_held (s : State) (r : Indices) : (s.settleOutputs r).held = s.held := rfl
@[simp] theorem settleOutputs_host (s : State) (r : Indices) : (s.settleOutputs r).host = s.host := rfl
@[simp] theorem settleOutputs_glitches (s : State) (r : Indices) : (s.settleOutputs r).glitches = s.glitches := rfl

@[simp] theorem driveInputs_outputs (s : State) (d : Drive) : (s.driveInputs d).outputs = s.outputsOnDrive d := rfl
@[simp] theorem driveInputs_addr_i (s : State) (d : Drive) : (s.driveInputs d).addr_i = d.addr := rfl
@[simp] theorem driveInputs_mode_i (s : State) (d : Drive) : (s.driveInputs d).mode_i = modeBit d.mode := rfl
@[simp] theorem driveInputs_flight (s : State) (d : Drive) : (s.driveInputs d).flight = .settling := rfl
@[simp] theorem driveInputs_agenda (s : State) (d : Drive) : (s.driveInputs d).agenda = s.agenda := rfl
@[simp] theorem driveInputs_held (s : State) (d : Drive) : (s.driveInputs d).held = s.held := rfl
@[simp] theorem driveInputs_host (s : State) (d : Drive) : (s.driveInputs d).host = s.host := rfl

@[simp] theorem driveInputs_inputs (s : State) (d : Drive) : (s.driveInputs d).inputs = d := by simp [State.inputs]
@[simp] theorem driveInputs_glitches (s : State) (d : Drive) :
    (s.driveInputs d).glitches = if s.inputs = d then s.glitches else s.glitches + 1 := rfl

@[simp] theorem driveNext_outputs (s : State) (d : Drive) (p : List Drive) :
    (s.driveNext d p).outputs = s.outputsOnDrive d := rfl
@[simp] theorem driveNext_addr_i (s : State) (d : Drive) (p : List Drive) : (s.driveNext d p).addr_i = d.addr := rfl
@[simp] theorem driveNext_mode_i (s : State) (d : Drive) (p : List Drive) :
    (s.driveNext d p).mode_i = modeBit d.mode := rfl
@[simp] theorem driveNext_flight (s : State) (d : Drive) (p : List Drive) : (s.driveNext d p).flight = .settling := rfl
@[simp] theorem driveNext_agenda (s : State) (d : Drive) (p : List Drive) : (s.driveNext d p).agenda = p := rfl
@[simp] theorem driveNext_held (s : State) (d : Drive) (p : List Drive) : (s.driveNext d p).held = s.held := rfl
@[simp] theorem driveNext_host (s : State) (d : Drive) (p : List Drive) : (s.driveNext d p).host = s.host := rfl
@[simp] theorem driveNext_glitches (s : State) (d : Drive) (p : List Drive) :
    (s.driveNext d p).glitches = if s.inputs = d then s.glitches else s.glitches + 1 := rfl

@[simp] theorem driveMode_outputs (s : State) (b : ModeBit) :
    (s.driveMode b).outputs = s.outputsOnDrive ⟨s.addr_i, modeOfBit b⟩ := rfl
@[simp] theorem driveMode_inputs (s : State) (b : ModeBit) : (s.driveMode b).inputs = ⟨s.addr_i, modeOfBit b⟩ := by
  simp [State.driveMode]
@[simp] theorem driveMode_addr_i (s : State) (b : ModeBit) : (s.driveMode b).addr_i = s.addr_i := rfl
@[simp] theorem driveMode_mode_i (s : State) (b : ModeBit) : (s.driveMode b).mode_i = b := by simp [State.driveMode]
@[simp] theorem driveMode_flight (s : State) (b : ModeBit) : (s.driveMode b).flight = .settling := rfl
@[simp] theorem driveMode_agenda (s : State) (b : ModeBit) : (s.driveMode b).agenda = s.agenda := rfl
@[simp] theorem driveMode_held (s : State) (b : ModeBit) : (s.driveMode b).held = s.held := rfl
@[simp] theorem driveMode_host (s : State) (b : ModeBit) : (s.driveMode b).host = s.host := rfl

@[simp] theorem readOutputs_outputs (s : State) : s.readOutputs.outputs = s.outputs := rfl
@[simp] theorem readOutputs_inputs (s : State) : s.readOutputs.inputs = s.inputs := rfl
@[simp] theorem readOutputs_addr_i (s : State) : s.readOutputs.addr_i = s.addr_i := rfl
@[simp] theorem readOutputs_mode_i (s : State) : s.readOutputs.mode_i = s.mode_i := rfl
@[simp] theorem readOutputs_flight (s : State) : s.readOutputs.flight = .idle := rfl
@[simp] theorem readOutputs_agenda (s : State) : s.readOutputs.agenda = s.agenda := rfl
@[simp] theorem readOutputs_held (s : State) : s.readOutputs.held = s.held ++ [⟨s.inputs, s.outputs⟩] := rfl
@[simp] theorem readOutputs_host (s : State) : s.readOutputs.host = s.host := rfl
@[simp] theorem readOutputs_glitches (s : State) : s.readOutputs.glitches = s.glitches := rfl

@[simp] theorem report_outputs (s : State) : s.report.outputs = s.outputs := rfl
@[simp] theorem report_inputs (s : State) : s.report.inputs = s.inputs := rfl
@[simp] theorem report_addr_i (s : State) : s.report.addr_i = s.addr_i := rfl
@[simp] theorem report_mode_i (s : State) : s.report.mode_i = s.mode_i := rfl
@[simp] theorem report_flight (s : State) : s.report.flight = s.flight := rfl
@[simp] theorem report_agenda (s : State) : s.report.agenda = s.agenda := rfl
@[simp] theorem report_held (s : State) : s.report.held = [] := rfl
@[simp] theorem report_host (s : State) : s.report.host = .exited (ranResult s.held) := rfl
@[simp] theorem report_glitches (s : State) : s.report.glitches = s.glitches := rfl

@[simp] theorem launch_outputs (s : State) (arg : Option String) : (s.launch arg).outputs = s.outputs := rfl
@[simp] theorem launch_inputs (s : State) (arg : Option String) : (s.launch arg).inputs = s.inputs := rfl
@[simp] theorem launch_flight (s : State) (arg : Option String) : (s.launch arg).flight = s.flight := rfl
@[simp] theorem launch_addr_i (s : State) (arg : Option String) : (s.launch arg).addr_i = s.addr_i := rfl
@[simp] theorem launch_mode_i (s : State) (arg : Option String) : (s.launch arg).mode_i = s.mode_i := rfl
@[simp] theorem launch_agenda (s : State) (arg : Option String) : (s.launch arg).agenda = s.agenda := rfl
@[simp] theorem launch_held (s : State) (arg : Option String) : (s.launch arg).held = [] := rfl
@[simp] theorem launch_host (s : State) (arg : Option String) : (s.launch arg).host = .launched arg := rfl
@[simp] theorem launch_glitches (s : State) (arg : Option String) : (s.launch arg).glitches = s.glitches := rfl

@[simp] theorem schedule_outputs (s : State) (p : List Drive) : (s.schedule p).outputs = s.outputs := rfl
@[simp] theorem schedule_inputs (s : State) (p : List Drive) : (s.schedule p).inputs = s.inputs := rfl
@[simp] theorem schedule_flight (s : State) (p : List Drive) : (s.schedule p).flight = s.flight := rfl
@[simp] theorem schedule_agenda (s : State) (p : List Drive) : (s.schedule p).agenda = s.agenda ++ p := rfl
@[simp] theorem schedule_held (s : State) (p : List Drive) : (s.schedule p).held = s.held := rfl
@[simp] theorem schedule_host (s : State) (p : List Drive) : (s.schedule p).host = s.host := rfl
@[simp] theorem schedule_glitches (s : State) (p : List Drive) : (s.schedule p).glitches = s.glitches := rfl

@[simp] theorem withFetchWord_addr_i (s : State) (nbits w : Nat) : (s.withFetchWord nbits w).addr_i = s.addr_i := rfl
@[simp] theorem withFetchWord_mode_i (s : State) (nbits w : Nat) :
    (s.withFetchWord nbits w).mode_i = BitVec.ofNat 1 w := driveMode_mode_i s _
@[simp] theorem withFetchWord_outputs (s : State) (nbits w : Nat) :
    (s.withFetchWord nbits w).outputs = s.outputsOnDrive ⟨s.addr_i, modeOfBit (BitVec.ofNat 1 w)⟩ := rfl
@[simp] theorem withFetchWord_inputs (s : State) (nbits w : Nat) :
    (s.withFetchWord nbits w).inputs = ⟨s.addr_i, modeOfBit (BitVec.ofNat 1 w)⟩ := driveMode_inputs s _
@[simp] theorem withFetchWord_agenda (s : State) (nbits w : Nat) : (s.withFetchWord nbits w).agenda = s.agenda := rfl
@[simp] theorem withFetchWord_held (s : State) (nbits w : Nat) : (s.withFetchWord nbits w).held = s.held := rfl
@[simp] theorem withFetchWord_host (s : State) (nbits w : Nat) : (s.withFetchWord nbits w).host = s.host := rfl
@[simp] theorem withFetchWord_flight (s : State) (nbits w : Nat) : (s.withFetchWord nbits w).flight = .settling := rfl

end Sys2Proof.Machine
end

