-- ==== Sys2Proof/Laws/Ops.lean ====
section
/-! SUPPORT. For each shared operation one lemma that says once all it can do. -/

namespace Sys2Proof.Machine

/-- The pair just driven is what the input ports carry. -/
@[simp] theorem driveNext_inputs (s : State) (d : Drive) (p : List Drive) : (s.driveNext d p).inputs = d := by
  simp [State.inputs]

/-- All an operation does: the outputs settle to `Decode` of the address in the operation's mode (R59, R60). -/
theorem exec_eq (i : Instr) (s : State) : exec i s = .next (s.settleOutputs (decodeAddress s.addr_i i.mode)) := by
  cases i <;> rfl

/-- All an evaluation does: the outputs settle to `Decode` of the inputs (R24). -/
theorem evaluate_eq (s : State) :
    s.evaluate = .next (s.settleOutputs (decodeAddress s.addr_i (modeOfBit s.mode_i))) := by
  unfold State.evaluate decodeMode
  cases modeOfBit s.mode_i <;> rfl

/-- All that checking the argument does. -/
theorem checkArgument_cases (s : State) (arg : Option String) :
    (∃ a, argumentAddress arg = some a ∧
        s.checkArgument arg = { s with agenda := bothDrives a, held := [], host := .decoding }) ∨
      (argumentAddress arg = none ∧ s.checkArgument arg = { s with held := [], host := .exited usageResult }) := by
  unfold State.checkArgument
  cases argumentAddress arg with
  | none => exact .inr ⟨rfl, rfl⟩
  | some a => exact .inl ⟨a, rfl, rfl⟩

/-- Whatever the argument, nothing read before is held (R82), and ports, flight and counter are left alone. -/
@[simp] theorem checkArgument_held (s : State) (arg : Option String) : (s.checkArgument arg).held = [] := by
  obtain ⟨a, -, h⟩ | ⟨-, h⟩ := checkArgument_cases s arg <;> rw [h]

@[simp] theorem checkArgument_inputs (s : State) (arg : Option String) : (s.checkArgument arg).inputs = s.inputs := by
  obtain ⟨a, -, h⟩ | ⟨-, h⟩ := checkArgument_cases s arg <;> rw [h] <;> rfl

@[simp] theorem checkArgument_outputs (s : State) (arg : Option String) :
    (s.checkArgument arg).outputs = s.outputs := by
  obtain ⟨a, -, h⟩ | ⟨-, h⟩ := checkArgument_cases s arg <;> rw [h] <;> rfl

@[simp] theorem checkArgument_flight (s : State) (arg : Option String) : (s.checkArgument arg).flight = s.flight := by
  obtain ⟨a, -, h⟩ | ⟨-, h⟩ := checkArgument_cases s arg <;> rw [h]

@[simp] theorem checkArgument_glitches (s : State) (arg : Option String) :
    (s.checkArgument arg).glitches = s.glitches := by
  obtain ⟨a, -, h⟩ | ⟨-, h⟩ := checkArgument_cases s arg <;> rw [h]

/-- At the moment of an input change the outputs are the free value of that change (R102): `T_PD` is greater than 0. -/
theorem outputsAt_zero (n : Nat) (d : Drive) : outputsAt n d 0 = Config.transientOutputs n 0 :=
  if_pos (Nat.succ_pos _)

/-- A drive that changes an input leaves the outputs `outputsAt` gives at the moment of the change (R102). -/
theorem outputsOnDrive_of_ne {s : State} {d : Drive} (h : s.inputs ≠ d) :
    s.outputsOnDrive d = outputsAt s.glitches d 0 := by
  simp [State.outputsOnDrive, h, outputsAt_zero]

/-- A drive that holds the inputs leaves the outputs as they are (R24). -/
theorem outputsOnDrive_of_eq {s : State} {d : Drive} (h : s.inputs = d) : s.outputsOnDrive d = s.outputs := by
  simp [State.outputsOnDrive, h]

/-- A table word that changes `mode_i` leaves the outputs unsettled, like any other input change (R102). -/
theorem withFetchWord_outputs_of_ne {s : State} (nbits : Nat) {w : Nat}
    (h : s.inputs ≠ ⟨s.addr_i, modeOfBit (BitVec.ofNat 1 w)⟩) :
    (s.withFetchWord nbits w).outputs = outputsAt s.glitches (s.withFetchWord nbits w).inputs 0 := by
  rw [withFetchWord_outputs, withFetchWord_inputs, outputsOnDrive_of_ne h]

/-- The five things a step can be. -/
inductive StepCase (s : State) : State → Prop where
  /-- The block evaluates: to finish an evaluation, or with the host at rest. -/
  | evaluates
      (h : s.flight = .settling ∨
        (s.flight = .idle ∧ s.agenda = [] ∧ (s.host = .idle ∨ ∃ r, s.host = .exited r))) :
      StepCase s (s.settleOutputs (decodeAddress s.addr_i (modeOfBit s.mode_i)))
  /-- The host reads settled outputs. -/
  | reads (h : s.flight = .ready) : StepCase s s.readOutputs
  /-- The host drives its next pair. -/
  | drives (d : Drive) (rest : List Drive) (h : s.flight = .idle) (ha : s.agenda = d :: rest) :
      StepCase s (s.driveNext d rest)
  /-- The host checks its argument. -/
  | checks (arg : Option String) (h : s.flight = .idle) (ha : s.agenda = []) (hh : s.host = .launched arg) :
      StepCase s (s.checkArgument arg)
  /-- The host reports and ends its run. -/
  | reports (h : s.flight = .idle) (ha : s.agenda = []) (hh : s.host = .decoding) : StepCase s s.report

/-- Inversion of `step`: what it answers is one of the five. -/
theorem step_cases {s t : State} (h : step s = .next t) : StepCase s t := by
  unfold step at h
  split at h
  next hf => rw [evaluate_eq] at h; cases h; exact .evaluates (.inl hf)
  next hf => cases h; exact .reads hf
  next hf =>
    split at h
    next d rest ha => cases h; exact .drives d rest hf ha
    next ha =>
      split at h
      next arg hh => cases h; exact .checks arg hf ha hh
      next hh => cases h; exact .reports hf ha hh
      next hh => rw [evaluate_eq] at h; cases h; exact .evaluates (.inr ⟨hf, ha, .inl hh⟩)
      next r hh => rw [evaluate_eq] at h; cases h; exact .evaluates (.inr ⟨hf, ha, .inr ⟨r, hh⟩⟩)

theorem runSteps_zero (s : State) : runSteps 0 s = .next s := rfl

/-- One more step in front of a run. -/
theorem runSteps_succ {s t : State} (n : Nat) (h : step s = .next t) : runSteps (n + 1) s = runSteps n t := by
  have hs : Host.Core.step Sys2Proof.core s = .next t := h
  simp only [runSteps, Host.Core.run, hs]
  rfl

theorem advance_of_step {s t : State} (h : step s = .next t) : advance s = t := by
  simp [advance, h]

end Sys2Proof.Machine
end

