-- ==== Sys2Proof/Laws/PerInstr.lean ====
section
/-! SUPPORT. Statements made instruction by instruction. -/

namespace Sys2Proof.Laws

/-- The value of `MODE` that encodes a well-formed operation decodes to it (30_encoding.md R43). -/
def ModeRoundTrip.Statement (i : Instr) : Prop :=
  i.wf = true → decodeMode (encodeMode i) = i

theorem ModeRoundTrip.decode4K : ModeRoundTrip.Statement .decode4K := fun _ => rfl

theorem ModeRoundTrip.decode2M : ModeRoundTrip.Statement .decode2M := fun _ => rfl

end Sys2Proof.Laws
end

