-- ==== Sys2Proof/Machine/Flags.lean ====
section
/-! DEFINITION. Flag computations: there are none. The block has no flag, condition code, status output or error
output (10_state.md R19), and neither operation writes one (40_decode.md R59, R60). The file stands here to say so. -/
end

