-- ==== Sys2Proof/Tests/Slice0.lean ====
section
/-! SUPPORT. Tests on fixed values, with the source of each expected result, and for every statement with hypotheses a
concrete case that meets them. -/

namespace Sys2Proof.Tests

open Sys2Proof.Machine

/-! ### Decoding: words written out from 30_encoding.md R42 and R43 -/

/-- R43: MODE 0. The byte is `MODE` in bit 0 below seven zero bits (log 7). -/
theorem test_word_of_decode4K : decodeBytes [0b00000000#8] = .ok (.decode4K, []) := by decide

/-- R43: MODE 1. -/
theorem test_word_of_decode2M : decodeBytes [0b00000001#8] = .ok (.decode2M, []) := by decide

theorem test_table_word_of_decode4K : decodeTableWord 8 0b0 = some .decode4K := by decide

theorem test_table_word_of_decode2M : decodeTableWord 8 0b1 = some .decode2M := by decide

/-- R48: the only encoding length is one bit. -/
theorem test_longer_word_refused : decodeBytes [0b00000010#8] = .error .notOneBit := by decide

theorem test_no_byte_refused : decodeBytes [] = .error .noByte := by decide

/-- R42. -/
theorem test_encode_decode2M : encode .decode2M = [0b00000001#8] := by decide

/-- R49: the spec's names. -/
theorem test_mnemonics : Instr.decode4K.mnemonic = "DECODE.4K" ∧ Instr.decode2M.mnemonic = "DECODE.2M" := by decide

/-! ### Well-formedness: an ill-formed term for each check -/

/-- R49: an address of 65 bits. -/
theorem test_wf_refuses_wide_operand : (Assembly.op .decode4K (2 ^ 64)).wf = false := by decide

theorem test_wf_refuses_wide_operand_of_both : (Assembly.decodeBoth (2 ^ 64)).wf = false := by decide

theorem test_wf_accepts_widest_address : (Assembly.op .decode2M (2 ^ 64 - 1)).wf = true := by decide

/-! ### The operations: 95_test_vectors.md section 2.1, one step each -/

/-- A machine with `a` on `addr_i`, about to evaluate the operation of table word `w`. -/
def loaded (w : Nat) (a : LinearAddress) : State :=
  State.withFetchWord { State.reset with addr_i := a } 8 w

/-- The outputs after one step. -/
def outputsOfStep (s : State) : Option Indices :=
  match step s with
  | .next t => some t.outputs
  | .fault _ => none
  | .refused _ => none

/-- Vector V20. -/
theorem test_decode4K_mixed_pattern :
    outputsOfStep (loaded 0 0x123456789ABCDEF0#64) = some ⟨172, 482, 213, 3824⟩ := by decide

/-- Vector V19, with the level-3 index as 90_conflicts.md C1 corrects it. -/
theorem test_decode4K_source_example :
    outputsOfStep (loaded 0 0xFFFFFFFF80200000#64) = some ⟨511, 510, 1, 0⟩ := by decide

/-- Vector V20. -/
theorem test_decode2M_mixed_pattern :
    outputsOfStep (loaded 1 0x123456789ABCDEF0#64) = some ⟨172, 482, 213, 1892080⟩ := by decide

/-- Vector V6: the bits of the level-1 index are kept. -/
theorem test_decode2M_level_one_bits :
    outputsOfStep (loaded 1 0x00000000001FF000#64) = some ⟨0, 0, 0, 2093056⟩ := by decide

/-! ### The host: 41_host_cli.md -/

/-- R77. -/
theorem test_decimal : decimal 2097151 = ['2', '0', '9', '7', '1', '5', '1'] := by decide

/-- R49, program P2 step 1: the notation for a result. -/
theorem test_result_text :
    resultText ⟨0, 0, 0, 291⟩ =
      "-> " ++ String.singleton (Char.ofNat 123) ++ "0, 0, 0, 291" ++ String.singleton (Char.ofNat 125) := by decide

/-- R74, R75 and vector W3. -/
theorem test_source_argument :
    argumentAddress (some "0xffffffff80200000") = some 0xFFFFFFFF80200000#64 := by decide

/-- R76: a numeric line. -/
theorem test_value_line_text : lineText (.value "L" 510) = "L:\t510" := by decide

/-- What the host holds after one step. -/
def heldAfterStep (s : State) : Option (List Reading) :=
  match step s with
  | .next t => some t.held
  | .fault _ => none
  | .refused _ => none

/-- R82: a usage run drops what the host held, though it was put there after the launch. -/
theorem test_usage_run_drops_earlier_readings :
    heldAfterStep { State.reset with host := .launched (some "abc"), held := bothResults 5 } = some [] := by decide

/-- R82: a run that has reported holds nothing. -/
theorem test_reported_run_holds_nothing :
    heldAfterStep { State.reset with host := .decoding, held := bothResults 9 } = some [] := by decide

/-! ### Witnesses: each statement's hypotheses are met by a concrete case -/

/-- `addr_i` is `a`, nothing in flight. -/
def resting (a : LinearAddress) : State := { State.reset with addr_i := a }

theorem test_witness_Decode4KWritesSlicesOfItsAddress :
    (0xFFFF000000000000#64 &&& 0x0000FFFFFFFFFFFF#64 = 0#64 &&& 0x0000FFFFFFFFFFFF#64) ∧
    (0x00000000001FF000#64 &&& 0xFFFFFFFFFFE00FFF#64 = 0#64 &&& 0xFFFFFFFFFFE00FFF#64) ∧
    outputsAfter .decode4K 0x1FFFFF#64 State.reset = some ⟨0, 0, 0, 4095⟩ := by decide

theorem test_witness_Decode2MWritesSlicesOfItsAddress :
    0xFFFF000000000000#64 &&& 0x0000FFFFFFFFFFFF#64 = 0#64 &&& 0x0000FFFFFFFFFFFF#64 := by decide

theorem test_witness_OperationsWriteEveryOutputAndLeaveInputsAndHostAlone :
    ∃ t u, exec .decode4K (resting 1) = .next t ∧
      exec .decode4K ((resting 1).setOutputs ⟨511, 511, 511, 2097151⟩) = .next u :=
  ⟨_, _, exec_eq _ _, exec_eq _ _⟩

theorem test_witness_StepRunsTheSelectedOperation :
    (loaded 1 5).flight = .settling ∧
    ((resting 5).flight = .idle ∧ (resting 5).agenda = [] ∧ (resting 5).host = .idle) ∧
    (State.reset.flight = .idle ∧ State.reset.agenda = [] ∧
      ({ State.reset with host := .exited usageResult } : State).host = .exited usageResult) :=
  ⟨rfl, ⟨rfl, rfl, rfl⟩, rfl, rfl, rfl⟩

theorem test_witness_LoadedWordIsEvaluatedNext :
    decodeTableWord 8 0 = some .decode4K ∧ decodeTableWord 8 1 = some .decode2M := by decide

theorem test_witness_DecodedBytesAreExactlyEncodedOperations :
    decodeBytes [0x01#8, 0xAB#8] = .ok (.decode2M, [0xAB#8]) ∧ [0x01#8, 0xAB#8] = encode .decode2M ++ [0xAB#8] := by
  decide

theorem test_witness_LevelOneIndexIsOutputOnlyAsOffset :
    (resting 0x1FF123).addr_i &&& ~~~0x1FF000#64 = (resting 0x123).addr_i &&& ~~~0x1FF000#64 ∧
    (∃ t t', exec .decode4K (resting 0x1FF123) = .next t ∧ exec .decode4K (resting 0x123) = .next t') ∧
    (∃ t, exec .decode2M (resting 0x1FF123) = .next t) :=
  ⟨by decide, ⟨_, _, exec_eq _ _, exec_eq _ _⟩, _, exec_eq _ _⟩

theorem test_witness_OnlyTheOffsetDependsOnTheMode :
    ∃ t u, exec .decode4K (resting 0x1FF123) = .next t ∧ exec .decode2M (resting 0x1FF123) = .next u :=
  ⟨_, _, exec_eq _ _, exec_eq _ _⟩

theorem test_witness_OutputsStayInTheirRanges :
    outputsOfStep (loaded 0 0xFFFFFFFFFFFFFFFF#64) = some ⟨511, 511, 511, 4095⟩ ∧
    outputsOfStep (loaded 1 0xFFFFFFFFFFFFFFFF#64) = some ⟨511, 511, 511, 2097151⟩ := by decide

theorem test_witness_FourKiBOffsetIsZeroExtendedOntoThePort :
    (∃ t, exec .decode4K (resting 0x1FFFFF) = .next t) ∧
    ∃ u, exec .decode4K
      { resting 0x1FFFFF with addr_i := (resting 0x1FFFFF).addr_i ^^^ ((511 : Index).setWidth 64 <<< 12) } = .next u :=
  ⟨⟨_, exec_eq _ _⟩, _, exec_eq _ _⟩

theorem test_witness_OutputsDependOnTheInputsAlone :
    (resting 7).inputs = ({ resting 7 with glitches := 9, held := [readingOf ⟨0, .twoMiB⟩] } : State).inputs ∧
    ∃ t t', (resting 7).evaluate = .next t ∧
      ({ resting 7 with glitches := 9, held := [readingOf ⟨0, .twoMiB⟩] } : State).evaluate = .next t' :=
  ⟨rfl, _, _, evaluate_eq _, evaluate_eq _⟩

theorem test_witness_OutputsRebuildTheDecodedAddress :
    (resting 0xFFFF000000000000#64).addr_i.extractLsb 47 0 = (resting 0).addr_i.extractLsb 47 0 ∧
    (∃ t, exec .decode2M (resting 0x1FF000) = .next t) ∧ (∃ t, exec .decode4K (resting 0x1FF000) = .next t) :=
  ⟨by decide, ⟨_, exec_eq _ _⟩, _, exec_eq _ _⟩

theorem test_witness_OutputsAreTheIndexPathLessLevelOne :
    (∃ t, exec .decode4K (resting 0x1FF000) = .next t) ∧ (∃ t, exec .decode2M (resting 0x1FF000) = .next t) :=
  ⟨⟨_, exec_eq _ _⟩, _, exec_eq _ _⟩

/-- A run half way: the FourKiB result of address 0 is held, the TwoMiB pair is still to drive. -/
def midRun : State :=
  { State.reset with host := .decoding, held := [readingOf ⟨0, .fourKiB⟩], agenda := [⟨0, .twoMiB⟩] }

theorem midRun_inv : midRun.Inv where
  coherent := fun _ => by decide
  heldSound := by simp [midRun, Reading.Sound, readingOf]
  decoding := fun _ => ⟨0, rfl⟩
  exited := by simp [midRun]

theorem test_witness_EveryStepKeepsTheInvariant : midRun.Inv ∧ ∃ t, step midRun = .next t :=
  ⟨midRun_inv, _, rfl⟩

/-- Nothing in flight, and the next pair to drive is `d`. -/
def aboutToDrive (d : Drive) : State := { State.reset with agenda := [d] }

theorem aboutToDrive_inv (d : Drive) : (aboutToDrive d).Inv where
  coherent := fun _ => by
    show State.reset.outputs = decodeAddress State.reset.addr_i (modeOfBit State.reset.mode_i)
    decide
  heldSound := by simp [aboutToDrive, State.reset]
  decoding := by simp [aboutToDrive, State.reset]
  exited := by simp [aboutToDrive, State.reset]

theorem test_witness_SettledOutputsStayWhileTheInputsHold :
    (aboutToDrive ⟨0, .fourKiB⟩).Inv ∧ (aboutToDrive ⟨0, .fourKiB⟩).flight ≠ .settling ∧
    ∃ t, step (aboutToDrive ⟨0, .fourKiB⟩) = .next t ∧ t.inputs = (aboutToDrive ⟨0, .fourKiB⟩).inputs :=
  ⟨aboutToDrive_inv _, by decide, _, rfl, rfl⟩

theorem test_witness_OnlyTheHostChangesTheInputs :
    ∃ t, step (aboutToDrive ⟨5, .twoMiB⟩) = .next t ∧ t.inputs ≠ (aboutToDrive ⟨5, .twoMiB⟩).inputs :=
  ⟨_, rfl, by decide⟩

theorem test_witness_DrivingPutsThePairOnTheInputs :
    (aboutToDrive ⟨0, .fourKiB⟩).flight = .idle ∧ (aboutToDrive ⟨0, .fourKiB⟩).agenda = [⟨0, .fourKiB⟩] ∧
    (aboutToDrive ⟨0, .fourKiB⟩).inputs = ⟨0, .fourKiB⟩ := by decide

/-- The outputs of the pair on the inputs have settled and are unread. -/
def aboutToRead : State := { State.reset with flight := .ready }

theorem aboutToRead_inv : aboutToRead.Inv where
  coherent := fun _ => by decide
  heldSound := by simp [aboutToRead, State.reset]
  decoding := by simp [aboutToRead, State.reset]
  exited := by simp [aboutToRead, State.reset]

theorem test_witness_TheHostReadsOnlySettledOutputs :
    aboutToRead.Inv ∧ ∃ t, step aboutToRead = .next t ∧ readingOf ⟨0, .fourKiB⟩ ∈ t.held ∧
      readingOf ⟨0, .fourKiB⟩ ∉ aboutToRead.held :=
  ⟨aboutToRead_inv, aboutToRead.readOutputs, rfl, by decide, by decide⟩

theorem test_witness_OutputsSettleWithinThePropagationDelay :
    Config.propagationDelay ≤ Config.propagationDelay ∧ (loaded 0 3).flight = .settling ∧
    ∃ t, step (loaded 0 3) = .next t :=
  ⟨Nat.le_refl _, rfl, _, rfl⟩

theorem test_witness_SequenceOfEvaluationsReadsDecodeOfEachPair :
    (aboutToDrive ⟨5, .twoMiB⟩).flight = .idle ∧ (aboutToDrive ⟨5, .twoMiB⟩).agenda = [⟨5, .twoMiB⟩] := by decide

theorem test_witness_InterleavedInstancesReadTheirOwnResults :
    (aboutToDrive ⟨5, .twoMiB⟩).flight = .idle ∧ (aboutToDrive ⟨5, .twoMiB⟩).host = .idle ∧
    (aboutToDrive ⟨5, .twoMiB⟩).held = [] ∧
    3 * (aboutToDrive ⟨5, .twoMiB⟩).agenda.length ≤ [true, false, false, true, true, false].count false ∧
    3 * (aboutToDrive ⟨5, .twoMiB⟩).agenda.length ≤ [true, false, false, true, true, false].count true := by decide

theorem test_witness_RunOnAnAddressReportsBothResults :
    (resting 9).flight = .idle ∧ (resting 9).agenda = [] ∧ argumentAddress (some "0x0") = some 0 := by decide

theorem test_witness_RunOnInvalidInputPrintsUsageAndDrivesNothing :
    hostParse "abc" = none ∧ (resting 9).flight = .idle ∧ (resting 9).agenda = [] ∧
    argumentAddress (some "abc") = none ∧ argumentAddress none = none := by decide

/-- Two states that differ in what earlier runs left. -/
theorem test_witness_RunsKeepNothingBetweenThem :
    (resting 9).flight = .idle ∧ (resting 9).agenda = [] ∧
    ({ resting 5 with host := .exited usageResult, held := bothResults 5 } : State).flight = .idle ∧
    ({ resting 5 with host := .exited usageResult, held := bothResults 5 } : State).agenda = [] := by decide

theorem test_witness_HostParseIsAnyParserMeetingTheConstraints :
    hostParseWith (fun _ => some (-1)) "0xffffffff80200000" = some 18446744071564165120 ∧
    hostParseWith (fun _ => some (-1)) "0x0" = some 0 ∧ hostParseWith (fun _ => some (-1)) "abc" = none := by decide

/-- Both ends of the 64-bit range, and the values just outside it. -/
theorem test_witness_WideParsedValuesAreRejectedOrTruncated :
    ((0 : Int) ≤ 0 ∧ (0 : Int) < 2 ^ 64) ∧ ((0 : Int) ≤ 2 ^ 64 - 1 ∧ (2 ^ 64 - 1 : Int) < 2 ^ 64) ∧
    ¬((0 : Int) ≤ 2 ^ 64 ∧ (2 ^ 64 : Int) < 2 ^ 64) ∧ ¬((0 : Int) ≤ -1 ∧ (-1 : Int) < 2 ^ 64) ∧
    hostParse "0x0" = some 0 := by decide

theorem test_witness_DecimalValuesHaveNoLeadingZeros : 0 < 1 ∧ '1' ∈ decimal 1 := by decide

theorem test_witness_UsageAndNumericLinesNeverAppearTogether :
    ∃ s : State, s.Inv ∧ s.host = .exited usageResult :=
  ⟨{ State.reset with host := .exited usageResult },
    ⟨fun _ => by decide, by simp [State.reset], by simp, fun r hr => by cases hr; exact .inl rfl⟩, rfl⟩

/-- The same for a run that reported results: it has numeric lines. -/
theorem test_witness_UsageAndNumericLinesNeverAppearTogether_ran :
    (∃ s : State, s.Inv ∧ s.host = .exited (ranResult (bothResults 0))) ∧
    (ranResult (bothResults 0)).stdout.any OutLine.isNumeric = true := by
  refine ⟨⟨{ State.reset with host := .exited (ranResult (bothResults 0)) },
    ⟨fun _ => by decide, by simp [State.reset], by simp, fun r hr => by cases hr; exact .inr ⟨0, rfl⟩⟩, rfl⟩, ?_⟩
  simp [ranResult, bothResults, bothDrives, reportLines, resultBlock, valueLines, OutLine.isNumeric]

/-- The widest address that can be driven, and the narrowest that cannot. -/
theorem test_witness_SyntaxLinesExpandToDrivenPairs : (2 ^ 64 - 1 : Nat) < 2 ^ 64 ∧ (2 : Nat) ^ 64 ≤ 2 ^ 64 := by decide

end Sys2Proof.Tests
end

/-! PROOFS. The statements of 10_state.md: which address bits reach the outputs (R23, R26), which step evaluates (R24),
and the invariant. -/

namespace Sys2Proof.Machine

/-! ### The slicers as bit fields -/

/-- Shifting right by `n` and masking with `k` ones is taking the `k` bits from bit `n` up. -/
theorem setWidth_ushiftRight_and_ones {w k : Nat} (hk : k ≤ w) (a : BitVec w) (n : Nat) :
    ((a >>> n) &&& (BitVec.allOnes k).setWidth w).setWidth k = a.extractLsb' n k := by
  ext i hi
  have hw : i < w := by omega
  simp [hi, hw]

/-- The mask is the low bits alone where nothing is shifted. -/
theorem setWidth_and_ones {w k : Nat} (hk : k ≤ w) (a : BitVec w) :
    (a &&& (BitVec.allOnes k).setWidth w).setWidth k = a.extractLsb' 0 k := by
  simpa using setWidth_ushiftRight_and_ones hk a 0

theorem sliceL4_eq_extractLsb' (a : LinearAddress) : sliceL4 a = a.extractLsb' 39 9 :=
  setWidth_ushiftRight_and_ones (by decide) a 39

theorem sliceL3_eq_extractLsb' (a : LinearAddress) : sliceL3 a = a.extractLsb' 30 9 :=
  setWidth_ushiftRight_and_ones (by decide) a 30

theorem sliceL2_eq_extractLsb' (a : LinearAddress) : sliceL2 a = a.extractLsb' 21 9 :=
  setWidth_ushiftRight_and_ones (by decide) a 21

theorem sliceOff4K_eq_extractLsb' (a : LinearAddress) : sliceOff4K a = a.extractLsb' 0 12 :=
  setWidth_and_ones (by decide) a

theorem sliceOff2M_eq_extractLsb' (a : LinearAddress) : sliceOff2M a = a.extractLsb' 0 21 :=
  setWidth_and_ones (by decide) a

/-- A bit field depends on its own bits alone. -/
theorem extractLsb'_congr {w n k : Nat} {a b : BitVec w}
    (h : ∀ i, n ≤ i → i < n + k → a.getLsbD i = b.getLsbD i) : a.extractLsb' n k = b.extractLsb' n k := by
  ext i hi
  simpa using h (n + i) (by omega) (by omega)

/-- The three indices and the low 12 bits are all that DECODE.4K outputs: bits [63:48] and [20:12] reach no port
(R23, R26). -/
theorem indices4K_congr {a b : LinearAddress}
    (h : ∀ i, i < 48 → (i < 12 ∨ 21 ≤ i) → a.getLsbD i = b.getLsbD i) : indices4K a = indices4K b := by
  have field (n k : Nat) (hn : n + k ≤ 48) (hout : n + k ≤ 12 ∨ 21 ≤ n) : a.extractLsb' n k = b.extractLsb' n k :=
    extractLsb'_congr fun i _ _ => h i (by omega) (by omega)
  simp only [indices4K, sliceL4_eq_extractLsb', sliceL3_eq_extractLsb', sliceL2_eq_extractLsb',
    sliceOff4K_eq_extractLsb']
  rw [field 39 9 (by omega) (by omega), field 30 9 (by omega) (by omega), field 21 9 (by omega) (by omega),
    field 0 12 (by omega) (by omega)]

/-- The low 48 bits are all that DECODE.2M outputs (R26). -/
theorem indices2M_congr {a b : LinearAddress} (h : ∀ i, i < 48 → a.getLsbD i = b.getLsbD i) :
    indices2M a = indices2M b := by
  have field (n k : Nat) (hn : n + k ≤ 48) : a.extractLsb' n k = b.extractLsb' n k :=
    extractLsb'_congr fun i _ _ => h i (by omega)
  simp only [indices2M, sliceL4_eq_extractLsb', sliceL3_eq_extractLsb', sliceL2_eq_extractLsb',
    sliceOff2M_eq_extractLsb']
  rw [field 39 9 (by omega), field 30 9 (by omega), field 21 9 (by omega), field 0 21 (by omega)]

/-- In either mode, address bits [63:48] reach no output (R26, R37). -/
theorem decodeAddress_congr {a b : LinearAddress} (h : ∀ i, i < 48 → a.getLsbD i = b.getLsbD i) (m : Mode) :
    decodeAddress a m = decodeAddress b m := by
  cases m with
  | fourKiB => exact indices4K_congr fun i hi _ => h i hi
  | twoMiB => exact indices2M_congr h

/-! ### What an operation leaves on the ports -/

/-- After an operation the outputs are `Decode` of its address in its mode. -/
theorem exec_outputs {i : Instr} {s t : State} (h : exec i s = .next t) :
    t.outputs = decodeAddress s.addr_i i.mode := by
  rw [exec_eq] at h
  cases h
  rfl

/-- After DECODE.4K `offset_o` is the low 12 address bits, zero-extended (R23). -/
theorem execDecode4K_offset {s t : State} (h : exec .decode4K s = .next t) :
    t.offset_o = (s.addr_i.extractLsb' 0 12).setWidth 21 := by
  have hout : t.offset_o = (sliceOff4K s.addr_i).setWidth 21 := congrArg Indices.pageOffset (exec_outputs h)
  rw [hout, sliceOff4K_eq_extractLsb']

/-- Changing address bits [20:12] changes no bit outside them. -/
theorem getLsbD_xor_middle (a : LinearAddress) (middle : Index) {i : Nat} (h : i < 12 ∨ 21 ≤ i) :
    (a ^^^ (middle.setWidth 64 <<< 12)).getLsbD i = a.getLsbD i := by
  obtain hlow | hhigh := h
  · simp [hlow]
  · have hmiddle : middle.getLsbD (i - 12) = false := BitVec.getLsbD_of_ge _ _ (by omega)
    simp [hmiddle]

/-- An address and its canonical twin agree below bit 48. -/
theorem getLsbD_canonicalTwin (a : LinearAddress) {i : Nat} (h : i < 48) :
    ((a.extractLsb 47 0).signExtend 64).getLsbD i = a.getLsbD i := by
  have h64 : i < 64 := by omega
  rw [BitVec.getLsbD_signExtend, BitVec.getLsbD_extractLsb]
  simp [h, h64]

/-- Settles O14: the offset port by its bit field, the other ports by the bits that reach them. -/
theorem fourKiBOffsetIsZeroExtendedOntoThePort : Obligations.FourKiBOffsetIsZeroExtendedOntoThePort := by
  refine ⟨fun s t h => ?_, fun s t u middle ht hu => ?_⟩
  · have hoff := execDecode4K_offset h
    have hnum : t.offset_o.toNat = s.addr_i.toNat % 4096 := by
      rw [hoff, BitVec.toNat_setWidth, BitVec.extractLsb'_toNat, Nat.shiftRight_zero]
      omega
    refine ⟨?_, hoff, hnum, by omega⟩
    rw [hoff]
    ext i hi
    simp
  · rw [exec_outputs hu, exec_outputs ht]
    exact indices4K_congr fun i _ hout => getLsbD_xor_middle s.addr_i middle hout

/-- Settles O17: both complete, and the twins agree on every bit that reaches an output. -/
theorem nonCanonicalAddressDecodesLikeItsCanonicalTwin :
    Obligations.NonCanonicalAddressDecodesLikeItsCanonicalTwin := by
  intro i s
  refine ⟨_, _, exec_eq i s, exec_eq i _, ?_⟩
  rw [settleOutputs_outputs, settleOutputs_outputs]
  exact decodeAddress_congr (fun j hj => (getLsbD_canonicalTwin s.addr_i hj).symm) i.mode

/-! ### When a step evaluates -/

theorem step_of_settling {s : State} (h : s.flight = .settling) : step s = s.evaluate := by
  simp [step, h]

/-- With nothing in flight, nothing to drive and no run to go on with, a step evaluates the inputs that hold. -/
theorem step_of_rest {s : State} (hf : s.flight = .idle) (ha : s.agenda = [])
    (hh : s.host = .idle ∨ ∃ r, s.host = .exited r) : step s = s.evaluate := by
  obtain hh | ⟨r, hh⟩ := hh <;> simp [step, hf, ha, hh]

/-- Settles O4. -/
theorem stepRunsTheSelectedOperation : Obligations.StepRunsTheSelectedOperation := by
  intro s h
  obtain hf | ⟨hf, ha, hh⟩ := h
  · exact step_of_settling hf
  · exact step_of_rest hf ha hh

/-! ### The pair in flight -/

theorem inFlight_of_idle {s : State} (h : s.flight = .idle) : s.inFlight = [] := by
  simp [State.inFlight, h]

theorem inFlight_of_settling {s : State} (h : s.flight = .settling) : s.inFlight = [s.inputs] := by
  simp [State.inFlight, h]

theorem inFlight_of_ready {s : State} (h : s.flight = .ready) : s.inFlight = [s.inputs] := by
  simp [State.inFlight, h]

@[simp] theorem readOutputs_inFlight (s : State) : s.readOutputs.inFlight = [] := rfl

@[simp] theorem driveNext_inFlight (s : State) (d : Drive) (p : List Drive) : (s.driveNext d p).inFlight = [d] := by
  rw [inFlight_of_settling (driveNext_flight s d p), driveNext_inputs]

/-- Settling does not change which pair is in flight. -/
@[simp] theorem settleOutputs_inFlight (s : State) (r : Indices) : (s.settleOutputs r).inFlight = s.inFlight := by
  cases hf : s.flight <;> simp [State.inFlight, hf, Flight.settle]

/-- No evaluation is settling once its outputs have settled. -/
theorem Flight.settle_ne_settling (f : Flight) : f.settle ≠ .settling := by
  cases f <;> decide

/-! ### The invariant, action by action -/

/-- What sound readings report is determined by the pairs they were read for. -/
theorem eq_map_readingOf {held : List Reading} (h : ∀ r ∈ held, r.Sound) :
    held = (held.map Reading.drive).map readingOf := by
  have hread (r : Reading) (hr : r ∈ held) : readingOf r.drive = r := by
    have hout : r.out = decodeAddress r.drive.addr r.drive.mode := h r hr
    simp [readingOf, ← hout]
  rw [List.map_map]
  exact (List.map_id' held).symm.trans (List.map_congr_left fun r hr => (hread r hr).symm)

/-- An evaluation leaves the outputs `Decode` of the inputs, and the pair in flight in flight. -/
theorem inv_settleOutputs {s : State} (hs : s.Inv) :
    (s.settleOutputs (decodeAddress s.addr_i (modeOfBit s.mode_i))).Inv where
  coherent := fun _ => rfl
  heldSound := hs.heldSound
  decoding := by simpa using hs.decoding
  exited := hs.exited

/-- Reading moves the pair in flight, with settled outputs, to the end of what is held. -/
theorem inv_readOutputs {s : State} (hs : s.Inv) (hf : s.flight = .ready) : s.readOutputs.Inv := by
  have hout : s.outputs = decodeAddress s.addr_i (modeOfBit s.mode_i) := hs.coherent (by simp [hf])
  refine ⟨fun _ => hout, fun r hr => ?_, fun hh => ?_, hs.exited⟩
  · obtain hr | rfl : r ∈ s.held ∨ r = ⟨s.inputs, s.outputs⟩ := by simpa using hr
    · exact hs.heldSound r hr
    · exact hout
  · obtain ⟨a, ha⟩ := hs.decoding hh
    rw [inFlight_of_ready hf] at ha
    exact ⟨a, by simpa using ha⟩

/-- Driving moves the first pair of the agenda into flight; its outputs are not settled. -/
theorem inv_driveNext {s : State} (hs : s.Inv) {d : Drive} {rest : List Drive} (hf : s.flight = .idle)
    (hd : s.agenda = d :: rest) : (s.driveNext d rest).Inv := by
  refine ⟨fun hne => absurd (driveNext_flight s d rest) hne, hs.heldSound, fun hh => ?_, hs.exited⟩
  obtain ⟨a, ha⟩ := hs.decoding hh
  rw [inFlight_of_idle hf, hd] at ha
  exact ⟨a, by simpa using ha⟩

/-- A good argument begins `DECODE.BOTH` with nothing held; any other ends the run on the usage path. -/
theorem inv_checkArgument {s : State} (hs : s.Inv) (hf : s.flight = .idle) (arg : Option String) :
    (s.checkArgument arg).Inv := by
  obtain ⟨a, -, ht⟩ | ⟨-, ht⟩ := checkArgument_cases s arg <;> rw [ht]
  · exact ⟨hs.coherent, by simp, fun _ => ⟨a, by simp [inFlight_of_idle, hf]⟩, by simp⟩
  · exact ⟨hs.coherent, by simp, by simp, by simp⟩

/-- With nothing in flight and nothing to drive, a run holds both results of its address, and reports them. -/
theorem inv_report {s : State} (hs : s.Inv) (hf : s.flight = .idle) (ha : s.agenda = [])
    (hh : s.host = .decoding) : s.report.Inv := by
  obtain ⟨a, hpairs⟩ := hs.decoding hh
  have hdrives : s.held.map Reading.drive = bothDrives a := by
    simpa [inFlight_of_idle hf, ha] using hpairs
  have hheld : s.held = bothResults a := by
    rw [eq_map_readingOf hs.heldSound, hdrives]
    rfl
  refine ⟨hs.coherent, by simp, by simp, fun r hr => .inr ⟨a, ?_⟩⟩
  have hr : ranResult s.held = r := by simpa using hr
  rw [← hr, hheld]

/-- Settles O23: the five things a step can be, each of which keeps the invariant. -/
theorem everyStepKeepsTheInvariant : Obligations.EveryStepKeepsTheInvariant := by
  intro s t hs h
  cases step_cases h with
  | evaluates _ => exact inv_settleOutputs hs
  | reads hf => exact inv_readOutputs hs hf
  | drives d rest hf hd => exact inv_driveNext hs hf hd
  | checks arg hf _ _ => exact inv_checkArgument hs hf arg
  | reports hf ha hh => exact inv_report hs hf ha hh

/-- Settles O22: the ports at reset carry 0, which is what `Decode` gives for the inputs at reset; the rest is empty. -/
theorem resetMeetsTheInvariant : Obligations.ResetMeetsTheInvariant where
  coherent := fun _ => by decide
  heldSound := by simp [State.reset]
  decoding := by simp [State.reset]
  exited := by simp [State.reset]

/-- Settles O24: an evaluation writes what settled outputs already carried, a drive that holds the inputs is no change
of them, and the host's other actions leave the ports alone. -/
theorem settledOutputsStayWhileTheInputsHold : Obligations.SettledOutputsStayWhileTheInputsHold := by
  intro s t hs hf h hin
  have hout : s.outputs = decodeAddress s.addr_i (modeOfBit s.mode_i) := hs.coherent hf
  suffices hsame : t.outputs = s.outputs from ⟨hsame, hsame.trans hout⟩
  cases step_cases h with
  | evaluates _ => rw [settleOutputs_outputs, hout]
  | reads _ => exact readOutputs_outputs s
  | drives d rest _ _ =>
    rw [driveNext_inputs] at hin
    rw [driveNext_outputs, outputsOnDrive_of_eq hin.symm]
  | checks arg _ _ _ => exact checkArgument_outputs s arg
  | reports _ _ _ => exact report_outputs s

end Sys2Proof.Machine

/-! PROOFS. The statements of 20_memory.md: the span an index value selects at each level (R35), and the index path of
a translation (R36). -/

namespace Sys2Proof.Machine

/-! ### The spans of the levels -/

theorem sliceL1_eq_extractLsb' (a : LinearAddress) : sliceL1 a = a.extractLsb' 12 9 :=
  setWidth_ushiftRight_and_ones (by decide) a 12

/-- The index of every level is the nine address bits from the level's lowest bit up. -/
theorem Level.index_eq_extractLsb' (l : Level) (a : LinearAddress) : l.index a = a.extractLsb' l.lsb 9 :=
  match l with
  | .level4 => sliceL4_eq_extractLsb' a
  | .level3 => sliceL3_eq_extractLsb' a
  | .level2 => sliceL2_eq_extractLsb' a
  | .level1 => sliceL1_eq_extractLsb' a

/-- The index is the number of the level's span in which the address lies, modulo the 512 entries of a table. -/
theorem Level.toNat_index (l : Level) (a : LinearAddress) : (l.index a).toNat = a.toNat / l.span % 512 := by
  rw [l.index_eq_extractLsb', BitVec.extractLsb'_toNat, Nat.shiftRight_eq_div_pow, Level.span]

/-- The field of every level lies inside the address. -/
theorem Level.lsb_add_nine_le (l : Level) : l.lsb + 9 ≤ 64 := by
  cases l <;> decide

/-- The address that carries `v` in a level's field and 0 elsewhere has index `v`. -/
theorem Level.index_shiftLeft_lsb (l : Level) (v : Index) : l.index (v.setWidth 64 <<< l.lsb) = v := by
  have hfit := l.lsb_add_nine_le
  rw [l.index_eq_extractLsb']
  ext i hi
  have hbit : l.lsb + i < 64 := by omega
  simp [hi, hbit]

/-- Settles O18: an index is a span number, and every one is reached by writing it into its field. -/
theorem eachIndexSelectsASpanOfTheAddressSpace : Obligations.EachIndexSelectsASpanOfTheAddressSpace := by
  refine ⟨rfl, rfl, rfl, rfl, rfl, fun l v => ⟨⟨_, l.index_shiftLeft_lsb v⟩, fun a => ?_⟩⟩
  rw [← BitVec.toNat_inj, l.toNat_index]

/-! ### The index path -/

/-- A translation of a 4KiB page passes through all four levels. -/
theorem indexPath_fourKiB (a : LinearAddress) :
    indexPath a .fourKiB = [sliceL4 a, sliceL3 a, sliceL2 a, sliceL1 a] := rfl

/-- A translation of a 2MiB page ends at level 2. -/
theorem indexPath_twoMiB (a : LinearAddress) : indexPath a .twoMiB = [sliceL4 a, sliceL3 a, sliceL2 a] := rfl

/-- The index ports carry the same three levels in either mode. -/
theorem reportedPath_decodeAddress (a : LinearAddress) (m : Mode) :
    reportedPath (decodeAddress a m) = [sliceL4 a, sliceL3 a, sliceL2 a] := by
  cases m <;> rfl

/-- Settles O19: both operations report levels 4 to 2, which is the whole path of a 2MiB page and all but the last
step of a 4KiB page's. -/
theorem outputsAreTheIndexPathLessLevelOne : Obligations.OutputsAreTheIndexPathLessLevelOne := by
  refine ⟨fun s t h => ?_, fun s t h => ?_⟩ <;> rw [exec_outputs h, reportedPath_decodeAddress]
  · exact indexPath_fourKiB s.addr_i
  · exact indexPath_twoMiB s.addr_i

end Sys2Proof.Machine

/-! PROOFS. The statements of 30_encoding.md: the opcode map (R43, R46), the byte layout (R42, R48), the loading
interface (R41) and the lines that name operations (R49, R50). -/

namespace Sys2Proof.Machine

/-! ### The opcode map -/

@[simp] theorem mode_decodeMode (b : ModeBit) : (decodeMode b).mode = modeOfBit b := by
  unfold decodeMode
  cases modeOfBit b <;> rfl

@[simp] theorem encodeMode_decodeMode (b : ModeBit) : encodeMode (decodeMode b) = b := by
  simp [encodeMode]

/-- No operation is ill formed (R44, R46). -/
@[simp] theorem Instr.wf_eq_true (i : Instr) : i.wf = true := by
  cases i <;> rfl

@[simp] theorem decodeMode_encodeMode (i : Instr) : decodeMode (encodeMode i) = i :=
  match i with
  | .decode4K => Laws.ModeRoundTrip.decode4K rfl
  | .decode2M => Laws.ModeRoundTrip.decode2M rfl

/-- The opcode map is a bijection between the values of `MODE` and the operations (R43). -/
theorem decodeMode_eq_iff {b : ModeBit} {i : Instr} : decodeMode b = i ↔ b = encodeMode i :=
  ⟨fun h => by rw [← h, encodeMode_decodeMode], fun h => by rw [h, decodeMode_encodeMode]⟩

/-! ### The byte layout -/

/-- A word is the zero extension of its `k` low bits exactly when the bits above them are 0. -/
theorem eq_setWidth_iff_extractLsb' {k n : Nat} (b : BitVec (k + n)) (m : BitVec k) :
    b = m.setWidth (k + n) ↔ b.extractLsb' k n = 0#n ∧ b.extractLsb' 0 k = m := by
  constructor
  · rintro rfl
    constructor <;> ext i hi
    · simp
    · simp [hi, Nat.lt_add_right n hi]
  · rintro ⟨hhigh, rfl⟩
    ext i hi
    by_cases hk : i < k
    · simp [hk, BitVec.getLsbD_eq_getElem hi]
    · have hbit : (b.extractLsb' k n).getLsbD (i - k) = false := by simp [hhigh]
      rw [BitVec.getLsbD_extractLsb', Nat.add_sub_cancel' (by omega)] at hbit
      simpa [hk, show i - k < n by omega, BitVec.getLsbD_eq_getElem hi] using hbit

/-- The decoder takes one byte off the list, and that byte is the operation's. -/
theorem decodeBytes_cons_eq_ok_iff {b : Byte} {tail rest : List Byte} {i : Instr} :
    decodeBytes (b :: tail) = .ok (i, rest) ↔ b = (encodeMode i).setWidth 8 ∧ tail = rest := by
  rw [eq_setWidth_iff_extractLsb' (k := 1) (n := 7) b, ← decodeMode_eq_iff]
  by_cases h : b.extractLsb' 1 7 = 0#7 <;> simp [decodeBytes, h]

/-- Settles O8: an empty list is no encoding, and of a longer one the first byte decides. -/
theorem decodedBytesAreExactlyEncodedOperations : Obligations.DecodedBytesAreExactlyEncodedOperations := by
  intro bytes rest i
  cases bytes with
  | nil => simp [decodeBytes, encode]
  | cons b tail => simp [decodeBytes_cons_eq_ok_iff, encode]

/-! ### The words of the opcode table -/

/-- A table word gives an operation exactly when it has a bit at all and its low byte is the operation's. -/
theorem decodeTableWord_eq_some_iff {nbits w : Nat} {i : Instr} :
    decodeTableWord nbits w = some i ↔ 0 < nbits ∧ BitVec.ofNat 8 w = (encodeMode i).setWidth 8 := by
  have hresult : decodeTableWord nbits w = some i ↔
      ∃ rest, decodeBytes (wordBytes ((nbits + 7) / 8) w) = .ok (i, rest) := by
    unfold decodeTableWord
    cases decodeBytes (wordBytes ((nbits + 7) / 8) w) <;> simp [Prod.ext_iff]
  rw [hresult]
  cases hbytes : (nbits + 7) / 8 with
  | zero =>
    have hempty : ¬ 0 < nbits := by omega
    simp [wordBytes, decodeBytes, hempty]
  | succ n =>
    have hbits : 0 < nbits := by omega
    simp [wordBytes, decodeBytes_cons_eq_ok_iff, hbits]

/-- `MODE` is bit 0 of a table word, which is the bit the loading interface drives (R41). -/
theorem decodeMode_of_decodeTableWord {nbits w : Nat} {i : Instr} (h : decodeTableWord nbits w = some i) :
    decodeMode (BitVec.ofNat 1 w) = i := by
  obtain ⟨-, hbyte⟩ := decodeTableWord_eq_some_iff.mp h
  have hbit : BitVec.ofNat 1 w = encodeMode i := by
    simpa [BitVec.setWidth_ofNat_of_le] using congrArg (BitVec.setWidth 1) hbyte
  exact decodeMode_eq_iff.mpr hbit

/-- Settles O5: loading a word puts its operation on `mode_i` with an evaluation in flight, which the step finishes. -/
theorem loadedWordIsEvaluatedNext : Obligations.LoadedWordIsEvaluatedNext := by
  intro s nbits w i h
  rw [stepRunsTheSelectedOperation _ (.inl (withFetchWord_flight s nbits w)), withFetchWord_mode_i,
    decodeMode_of_decodeTableWord h]

/-- Settles O6: the values of `mode_i`, the bytes and the table words are each the encoding of their operation. -/
theorem modeWordsSelectTheirOperations : Obligations.ModeWordsSelectTheirOperations :=
  ⟨decodeMode_encodeMode .decode4K, decodeMode_encodeMode .decode2M,
    decodeBytes_cons_eq_ok_iff.mpr ⟨by decide, rfl⟩, decodeBytes_cons_eq_ok_iff.mpr ⟨by decide, rfl⟩,
    decodeTableWord_eq_some_iff.mpr ⟨by decide, by decide⟩, decodeTableWord_eq_some_iff.mpr ⟨by decide, by decide⟩⟩

/-- Settles O7: the operation a value decodes to encodes back to it, and every operation completes. -/
theorem everyModeValueSelectsAnOperationThatCompletes : Obligations.EveryModeValueSelectsAnOperationThatCompletes :=
  fun b => ⟨decodeMode b, rfl, encodeMode_decodeMode b, fun s => ⟨_, exec_eq _ s⟩⟩

/-! ### The lines that name operations -/

/-- A line of one operation is driven as that operation's mode and its address, if the address has 64 bits (R49). -/
theorem drives_op (i : Instr) (addr : Nat) :
    (Assembly.op i addr).drives = if addr < 2 ^ 64 then some [⟨BitVec.ofNat 64 addr, i.mode⟩] else none := by
  simp [Assembly.drives, Assembly.wf]

/-- `DECODE.BOTH` is driven as the two evaluations of its address, if the address has 64 bits (R50). -/
theorem drives_decodeBoth (addr : Nat) :
    (Assembly.decodeBoth addr).drives = if addr < 2 ^ 64 then some (bothDrives (BitVec.ofNat 64 addr)) else none := by
  simp [Assembly.drives, Assembly.wf, bothDrives]

/-- Settles O37: the width of the address alone decides whether a line can be driven. -/
theorem syntaxLinesExpandToDrivenPairs : Obligations.SyntaxLinesExpandToDrivenPairs := by
  intro addr
  constructor
  · intro hfits
    simpa [drives_op, drives_decodeBoth, Instr.mode] using hfits
  · intro hwide
    simpa [drives_op, drives_decodeBoth] using hwide

end Sys2Proof.Machine

/-! PROOFS. The statements of 40_decode.md: the slicers (R52 to R57), the two operations (R58 to R60, R65), and what
their outputs are (R61, R63, R64). -/

namespace Sys2Proof.Machine

/-! ### Fields, masks and ranges -/

/-- A number of `k` bits is at most `n` where `2 ^ k` is `n + 1`. -/
theorem toNat_le_of_two_pow_eq {k n : Nat} (v : BitVec k) (h : 2 ^ k = n + 1) : v.toNat ≤ n :=
  Nat.le_of_lt_succ (v.isLt.trans_eq h)

/-- Words that agree under a mask agree on every bit the mask keeps. -/
theorem getLsbD_eq_of_and_eq {w : Nat} {a b mask : BitVec w} (h : a &&& mask = b &&& mask) {i : Nat}
    (hi : mask.getLsbD i = true) : a.getLsbD i = b.getLsbD i := by
  simpa [hi] using congrArg (BitVec.getLsbD · i) h

/-- Words with the same bit field agree on its bits. -/
theorem getLsbD_eq_of_extractLsb'_eq {w n k : Nat} {a b : BitVec w} (h : a.extractLsb' n k = b.extractLsb' n k)
    {i : Nat} (hi : i < k) : a.getLsbD (n + i) = b.getLsbD (n + i) := by
  simpa [hi] using congrArg (BitVec.getLsbD · i) h

/-- A field put above the bits below it makes one longer field (R64). -/
theorem shiftLeft_or_extractLsb'_zero {w v : Nat} (n k : Nat) (a : BitVec w) :
    (a.extractLsb' n k).setWidth v <<< n ||| (a.extractLsb' 0 n).setWidth v
      = (a.extractLsb' 0 (n + k)).setWidth v := by
  ext i hi
  by_cases hlow : i < n
  · have hlong : i < n + k := by omega
    simp [hlow, hlong]
  · have hfield : i - n < k ↔ i < n + k := by omega
    have hbit : n + (i - n) = i := by omega
    simp [hlow, hfield, hbit]

/-! ### The slicers as numbers -/

/-- Settles O9: each index slicer is its bit field, its level's span number, and nine bits wide. -/
theorem indexSlicersReadTheirNineBits : Obligations.IndexSlicersReadTheirNineBits := by
  have range (v : Index) : v.toNat ≤ 511 := toNat_le_of_two_pow_eq v rfl
  refine ⟨fun a => ⟨?_, ?_, range _, ?_, ?_, range _, ?_, ?_, range _⟩, by decide⟩
  · exact sliceL4_eq_extractLsb' a
  · exact Level.level4.toNat_index a
  · exact sliceL3_eq_extractLsb' a
  · exact Level.level3.toNat_index a
  · exact sliceL2_eq_extractLsb' a
  · exact Level.level2.toNat_index a

theorem toNat_sliceOff4K (a : LinearAddress) : (sliceOff4K a).toNat = a.toNat % 4096 := by
  rw [sliceOff4K_eq_extractLsb', ← BitVec.setWidth_eq_extractLsb' (by decide), BitVec.toNat_setWidth]

theorem toNat_sliceOff2M (a : LinearAddress) : (sliceOff2M a).toNat = a.toNat % 2097152 := by
  rw [sliceOff2M_eq_extractLsb', ← BitVec.setWidth_eq_extractLsb' (by decide), BitVec.toNat_setWidth]

/-- Settles O10: each offset slicer is its low bits, a remainder, and as wide as the bits it keeps. -/
theorem offsetSlicersReadTheLowBits : Obligations.OffsetSlicersReadTheLowBits := by
  refine ⟨fun a => ⟨?_, toNat_sliceOff4K a, ?_, ?_, toNat_sliceOff2M a, ?_⟩, by decide⟩
  · exact sliceOff4K_eq_extractLsb' a
  · exact toNat_le_of_two_pow_eq _ rfl
  · exact sliceOff2M_eq_extractLsb' a
  · exact toNat_le_of_two_pow_eq _ rfl

/-! ### What an operation does to the state -/

theorem eq_settleOutputs_of_exec {i : Instr} {s t : State} (h : exec i s = .next t) :
    t = s.settleOutputs (decodeAddress s.addr_i i.mode) :=
  Host.Outcome.next.inj (h.symm.trans (exec_eq i s))

theorem eq_settleOutputs_of_evaluate {s t : State} (h : s.evaluate = .next t) :
    t = s.settleOutputs (decodeAddress s.addr_i (modeOfBit s.mode_i)) :=
  Host.Outcome.next.inj (h.symm.trans (evaluate_eq s))

theorem Flight.settle_eq_ite (f : Flight) : f.settle = if f = .settling then .ready else f := by
  cases f <;> rfl

/-- Settling, field by field: the four outputs and the evaluation in flight, and nothing else. -/
theorem settleOutputs_eq (s : State) (r : Indices) :
    s.settleOutputs r =
      { s with
        l4_idx_o := r.level4Index, l3_idx_o := r.level3Index, l2_idx_o := r.level2Index, offset_o := r.pageOffset
        flight := if s.flight = .settling then .ready else s.flight } := by
  rw [State.settleOutputs, Flight.settle_eq_ite]
  rfl

/-- On any machine an operation completes, and its outputs are `Decode` of the address. -/
theorem outputsAfter_eq (i : Instr) (a : LinearAddress) (s : State) :
    outputsAfter i a s = some (decodeAddress a i.mode) := by
  rw [outputsAfter, exec_eq]
  rfl

/-- Settles O3: settling writes every output and no field of the inputs, the host or the counter. -/
theorem operationsWriteEveryOutputAndLeaveInputsAndHostAlone :
    Obligations.OperationsWriteEveryOutputAndLeaveInputsAndHostAlone := by
  refine fun i s => ⟨fun t h => ?_, fun before t u ht hu => ?_⟩
  · simp [eq_settleOutputs_of_exec h]
  · rw [exec_outputs hu, exec_outputs ht, setOutputs_addr_i]

/-- Settles O15: an evaluation is `Decode` of the inputs, which it leaves on their ports for the next one. -/
theorem outputsDependOnTheInputsAlone : Obligations.OutputsDependOnTheInputsAlone := by
  intro s s' t t' hin ht ht'
  have houtputs {x y : State} (h : x.evaluate = .next y) : y.outputs = decodeAddress x.inputs.addr x.inputs.mode := by
    rw [eq_settleOutputs_of_evaluate h, settleOutputs_outputs]
    rfl
  have hkept : t.inputs = s.inputs := by
    rw [eq_settleOutputs_of_evaluate ht, settleOutputs_inputs]
  refine ⟨?_, _, evaluate_eq t, ?_⟩
  · rw [houtputs ht, houtputs ht', hin]
  · rw [houtputs (evaluate_eq t), houtputs ht, hkept]

/-- Settles O12: both operations report the same index path; one address with a bit of [20:12] set tells the offsets
apart. -/
theorem onlyTheOffsetDependsOnTheMode : Obligations.OnlyTheOffsetDependsOnTheMode := by
  refine ⟨fun s t u ht hu => ?_, { State.reset with addr_i := 0x1000#64 }, _, _, exec_eq _ _, exec_eq _ _, by decide⟩
  have hpath : reportedPath t.outputs = reportedPath u.outputs := by
    rw [exec_outputs ht, exec_outputs hu, reportedPath_decodeAddress, reportedPath_decodeAddress]
  simpa [reportedPath, State.outputs] using hpath

/-- Settles O13: all but the FourKiB offset by the width of the port. -/
theorem outputsStayInTheirRanges : Obligations.OutputsStayInTheirRanges := by
  refine ⟨fun i s t _ => ?_, fun s t h => ?_, fun s t _ => toNat_le_of_two_pow_eq _ rfl⟩
  · exact ⟨toNat_le_of_two_pow_eq _ rfl, toNat_le_of_two_pow_eq _ rfl, toNat_le_of_two_pow_eq _ rfl⟩
  · obtain ⟨hport, -⟩ := fourKiBOffsetIsZeroExtendedOntoThePort
    obtain ⟨-, -, -, hrange⟩ := hport s t h
    exact hrange

/-! ### DECODE.4K -/

/-- The nine upper bits of the offset port are 0 in FourKiB mode (R23), on a machine with this address. -/
theorem extractLsb_pageOffset_indices4K (a : LinearAddress) : (indices4K a).pageOffset.extractLsb 20 12 = 0 := by
  obtain ⟨hport, -⟩ := fourKiBOffsetIsZeroExtendedOntoThePort
  obtain ⟨hzero, -⟩ := hport { State.reset with addr_i := a } _ (exec_eq _ _)
  exact hzero

/-- Cutting to the bits a mask keeps, before widening to the port, changes nothing. -/
theorem setWidth_setWidth_and_ones {w k v : Nat} (a : BitVec w) :
    ((a &&& (BitVec.allOnes k).setWidth w).setWidth k).setWidth v
      = (a &&& (BitVec.allOnes k).setWidth w).setWidth v := by
  ext i hi
  by_cases hk : i < k <;> simp [hk]

/-- Address bits [63:48] and [20:12] are all that DECODE.4K leaves out. -/
theorem indices4K_eq_of_and_eq {a b mask : LinearAddress}
    (hmask : ∀ i < 48, i < 12 ∨ 21 ≤ i → mask.getLsbD i = true) (h : a &&& mask = b &&& mask) :
    indices4K a = indices4K b :=
  indices4K_congr fun i hi hout => getLsbD_eq_of_and_eq h (hmask i hi hout)

/-- Address bits [63:48] are left out in either mode. -/
theorem decodeAddress_eq_of_and_eq {a b : LinearAddress} (m : Mode)
    (h : a &&& 0x0000FFFFFFFFFFFF#64 = b &&& 0x0000FFFFFFFFFFFF#64) : decodeAddress a m = decodeAddress b m := by
  have hmask : ∀ i < 48, (0x0000FFFFFFFFFFFF#64).getLsbD i = true := by decide
  exact decodeAddress_congr (fun i hi => getLsbD_eq_of_and_eq h (hmask i hi)) m

/-- Settles O1: the equation is settling to `Decode` in FourKiB mode; the corner cases are facts about `indices4K`. -/
theorem decode4KWritesSlicesOfItsAddress : Obligations.Decode4KWritesSlicesOfItsAddress := by
  refine ⟨decodeMode_encodeMode .decode4K, fun s => ?_, fun s => ?_⟩
  · have hport : (sliceOff4K s.addr_i).setWidth 21 = (s.addr_i &&& 0xFFF#64).setWidth 21 :=
      setWidth_setWidth_and_ones (k := 12) s.addr_i
    rw [exec_eq, settleOutputs_eq, ← hport]
    rfl
  · simp only [outputsAfter_eq, Option.some_inj]
    refine ⟨by decide, by decide, fun a b h => decodeAddress_eq_of_and_eq _ h, fun a b h => ?_, ?_, by decide⟩
    · exact indices4K_eq_of_and_eq (by decide) h
    · rintro a _ rfl
      exact extractLsb_pageOffset_indices4K a

/-- Settles O2: the equation is settling to `Decode` in TwoMiB mode; the corner cases are facts about `indices2M`. -/
theorem decode2MWritesSlicesOfItsAddress : Obligations.Decode2MWritesSlicesOfItsAddress := by
  refine ⟨decodeMode_encodeMode .decode2M, fun s => ?_, fun s => ?_⟩
  · rw [exec_eq, settleOutputs_eq]
    rfl
  · simp only [outputsAfter_eq, Option.some_inj]
    exact ⟨by decide, by decide, fun a b h => decodeAddress_eq_of_and_eq _ h, by decide⟩

/-- Settles O11: what DECODE.4K leaves out, and the field of DECODE.2M's offset that it is. -/
theorem levelOneIndexIsOutputOnlyAsOffset : Obligations.LevelOneIndexIsOutputOnlyAsOffset := by
  refine ⟨sliceL1_eq_extractLsb', fun s s' t t' haddr h h' => ?_, fun s t h => execDecode4K_offset h,
    fun s t h => ?_⟩
  · rw [exec_outputs h, exec_outputs h']
    exact indices4K_eq_of_and_eq (by decide) haddr
  · have hport : t.offset_o = s.addr_i.extractLsb' 0 21 :=
      (congrArg Indices.pageOffset (exec_outputs h)).trans (sliceOff2M_eq_extractLsb' s.addr_i)
    rw [hport, sliceL1_eq_extractLsb']
    exact BitVec.extractLsb'_extractLsb'_of_le (by decide)

/-! ### Rebuilding the address from the outputs -/

/-- The fields of DECODE.2M, from the highest down, are the 48 decoded address bits (R64). -/
theorem rebuild_indices2M (a : LinearAddress) : rebuild (indices2M a) = a.setWidth 48 := by
  simp only [rebuild, indices2M, sliceL4_eq_extractLsb', sliceL3_eq_extractLsb', sliceL2_eq_extractLsb',
    sliceOff2M_eq_extractLsb', BitVec.or_assoc]
  rw [shiftLeft_or_extractLsb'_zero 21 9, shiftLeft_or_extractLsb'_zero 30 9, shiftLeft_or_extractLsb'_zero 39 9,
    BitVec.setWidth_eq, BitVec.setWidth_eq_extractLsb' (by decide)]

/-- Where address bits [20:12] are 0, both modes give the same outputs. -/
theorem indices4K_eq_indices2M {a : LinearAddress} (h : ∀ i, 12 ≤ i → i < 21 → a.getLsbD i = false) :
    indices4K a = indices2M a := by
  have hoffset : (a.extractLsb' 0 12).setWidth 21 = a.extractLsb' 0 21 := by
    ext i hi
    by_cases hlow : i < 12
    · simp [hlow]
    · simp [hlow, h i (by omega) hi]
  simp only [indices4K, indices2M, sliceOff4K_eq_extractLsb', sliceOff2M_eq_extractLsb', hoffset]

/-- DECODE.4K gives what DECODE.2M gives for the address with bits [20:12] cleared. -/
theorem indices4K_eq_indices2M_cleared (a : LinearAddress) : indices4K a = indices2M (a &&& ~~~0x1FF000#64) := by
  have hclear : ∀ i < 21, 12 ≤ i → (~~~0x1FF000#64).getLsbD i = false := by decide
  calc indices4K a
      = indices4K (a &&& ~~~0x1FF000#64) :=
        indices4K_eq_of_and_eq (mask := ~~~0x1FF000#64) (by decide) (by rw [BitVec.and_assoc, BitVec.and_self])
    _ = indices2M (a &&& ~~~0x1FF000#64) :=
        indices4K_eq_indices2M fun i h12 h21 => by rw [BitVec.getLsbD_and, hclear i h21 h12, Bool.and_false]

theorem rebuild_indices4K (a : LinearAddress) : rebuild (indices4K a) = a.setWidth 48 &&& ~~~0x1FF000#48 := by
  rw [indices4K_eq_indices2M_cleared, rebuild_indices2M, BitVec.setWidth_and]
  rfl

/-- Settles O16: TwoMiB outputs are all 48 decoded bits, FourKiB outputs those of the cleared address, and bits [63:48]
reach neither. -/
theorem outputsRebuildTheDecodedAddress : Obligations.OutputsRebuildTheDecodedAddress := by
  refine ⟨fun s t h => ?_, fun s t h => ⟨?_, ?_⟩, fun i s s' t t' haddr h h' => ?_⟩
  · rw [exec_outputs h]
    exact rebuild_indices2M s.addr_i
  · obtain rfl := eq_settleOutputs_of_exec h
    exact extractLsb_pageOffset_indices4K s.addr_i
  · rw [exec_outputs h]
    exact rebuild_indices4K s.addr_i
  · rw [exec_outputs h, exec_outputs h']
    refine decodeAddress_congr (fun j hj => ?_) i.mode
    simpa using getLsbD_eq_of_extractLsb'_eq (n := 0) haddr hj

end Sys2Proof.Machine

/-! PROOFS. The statements of 41_host_cli.md: how the host drives the block (R69), what a command-line run does with its
argument (R71 to R75, R79) and writes (R76, R77), and that nothing is kept between runs (R82). -/

namespace Sys2Proof.Machine

/-! ### The actions of the host, one step each -/

theorem step_of_ready {s : State} (hf : s.flight = .ready) : step s = .next s.readOutputs := by
  simp [step, hf]

theorem step_of_agenda {s : State} {d : Drive} {rest : List Drive} (hf : s.flight = .idle)
    (ha : s.agenda = d :: rest) : step s = .next (s.driveNext d rest) := by
  simp [step, hf, ha]

theorem step_of_launched {s : State} {arg : Option String} (hf : s.flight = .idle) (ha : s.agenda = [])
    (hh : s.host = .launched arg) : step s = .next (s.checkArgument arg) := by
  simp [step, hf, ha, hh]

theorem step_of_decoding {s : State} (hf : s.flight = .idle) (ha : s.agenda = []) (hh : s.host = .decoding) :
    step s = .next s.report := by
  simp [step, hf, ha, hh]

/-- Settles O25: of the five things a step can be, only a drive leaves another pair on the input ports. -/
theorem onlyTheHostChangesTheInputs : Obligations.OnlyTheHostChangesTheInputs := by
  intro s t h hne
  cases step_cases h with
  | evaluates _ => exact absurd (settleOutputs_inputs s _) hne
  | reads _ => exact absurd (readOutputs_inputs s) hne
  | drives d rest hf ha => exact ⟨hf, by simpa using ha, rfl, rfl, rfl⟩
  | checks arg _ _ _ => exact absurd (checkArgument_inputs s arg) hne
  | reports _ _ _ => exact absurd (report_inputs s) hne

/-- Settles O26: the step is the drive. -/
theorem drivingPutsThePairOnTheInputs : Obligations.DrivingPutsThePairOnTheInputs :=
  fun s d rest hf ha => ⟨s.driveNext d rest, step_of_agenda hf ha, driveNext_inputs s d rest, rfl, rfl, rfl, rfl, rfl,
    outputsOnDrive_of_eq⟩

/-! ### Driving an agenda to its end -/

/-- The machine once the host has driven `d`, let the outputs settle and read them. -/
def State.completePair (s : State) (d : Drive) (rest : List Drive) : State :=
  ((s.driveNext d rest).settleOutputs (decodeAddress d.addr d.mode)).readOutputs

@[simp] theorem completePair_flight (s : State) (d : Drive) (p : List Drive) : (s.completePair d p).flight = .idle :=
  rfl
@[simp] theorem completePair_agenda (s : State) (d : Drive) (p : List Drive) : (s.completePair d p).agenda = p := rfl
@[simp] theorem completePair_host (s : State) (d : Drive) (p : List Drive) : (s.completePair d p).host = s.host := rfl
@[simp] theorem completePair_held (s : State) (d : Drive) (p : List Drive) :
    (s.completePair d p).held = s.held ++ [readingOf d] := by
  simp [State.completePair, readingOf]

/-- A pair takes three steps: drive, settle, read (log 6). -/
theorem runSteps_pair {s : State} {d : Drive} {rest : List Drive} (hf : s.flight = .idle)
    (ha : s.agenda = d :: rest) (n : Nat) : runSteps (n + 3) s = runSteps n (s.completePair d rest) := by
  have hsettle : step (s.driveNext d rest) =
      .next ((s.driveNext d rest).settleOutputs (decodeAddress d.addr d.mode)) := by
    rw [step_of_settling (driveNext_flight s d rest), evaluate_eq, driveNext_addr_i, driveNext_mode_i,
      modeOfBit_modeBit]
  rw [runSteps_succ _ (step_of_agenda hf ha), runSteps_succ _ hsettle, runSteps_succ _ (step_of_ready rfl)]
  rfl

/-- The whole agenda is driven and read, pair by pair, and the machine then goes on from an empty one. -/
theorem runSteps_agenda (p : List Drive) {s : State} (hf : s.flight = .idle) (ha : s.agenda = p) :
    ∃ t, (∀ n, runSteps (n + 3 * p.length) s = runSteps n t) ∧
      t.held = s.held ++ p.map readingOf ∧ t.agenda = [] ∧ t.flight = .idle ∧ t.host = s.host := by
  induction p generalizing s with
  | nil => exact ⟨s, fun n => rfl, by simp, ha, hf, rfl⟩
  | cons d rest ih =>
    obtain ⟨t, hrun, hheld, hagenda, hflight, hhost⟩ :=
      ih (completePair_flight s d rest) (completePair_agenda s d rest)
    refine ⟨t, fun n => ?_, by simp [hheld], hagenda, hflight, hhost⟩
    calc runSteps (n + 3 * (rest.length + 1)) s
        = runSteps (n + 3 * rest.length) (s.completePair d rest) := runSteps_pair hf ha (n + 3 * rest.length)
      _ = runSteps n t := hrun n

/-- Settles O29: the run over the whole agenda, with no step after it. -/
theorem sequenceOfEvaluationsReadsDecodeOfEachPair : Obligations.SequenceOfEvaluationsReadsDecodeOfEachPair := by
  intro s hf
  obtain ⟨t, hrun, hend⟩ := runSteps_agenda s.agenda hf rfl
  exact ⟨t, by simpa [runSteps_zero] using hrun 0, hend⟩

/-! ### The argument -/

/-- Whatever it answers elsewhere, the parser answers the three texts of R74 as R74 says. -/
theorem hostParseWith_meets_constraints (elsewhere : String → Option Int) :
    hostParseWith elsewhere "0xffffffff80200000" = some 18446744071564165120 ∧
      hostParseWith elsewhere "0x0" = some 0 ∧ hostParseWith elsewhere "abc" = none := by
  simp [hostParseWith]

/-- A parser that meets the constraints is the one that asks it on every text but the three of R74. -/
theorem hostParseWith_self {p : String → Option Int} (hsource : p "0xffffffff80200000" = some 18446744071564165120)
    (hzero : p "0x0" = some 0) (habc : p "abc" = none) : hostParseWith p = p := by
  funext text
  unfold hostParseWith
  split_ifs with h1 h2 h3
  · rw [h1, hsource]
  · rw [h2, hzero]
  · rw [h3, habc]
  · rfl

/-- Settles O33: a parser that meets the constraints is itself what it answers elsewhere. -/
theorem hostParseIsAnyParserMeetingTheConstraints : Obligations.HostParseIsAnyParserMeetingTheConstraints := by
  refine ⟨hostParseWith_meets_constraints _, fun p => ⟨?_, ?_⟩⟩
  · rintro ⟨hsource, hzero, habc⟩
    exact ⟨p, hostParseWith_self hsource hzero habc⟩
  · rintro ⟨elsewhere, rfl⟩
    exact hostParseWith_meets_constraints elsewhere

/-- The low 64 bits of a number, in two's complement, are its remainder. -/
theorem toNat_ofInt_64 (v : Int) : ((BitVec.ofInt 64 v).toNat : Int) = v % 2 ^ 64 := by
  rw [BitVec.toNat_ofInt, Int.toNat_of_nonneg (Int.emod_nonneg v (by decide))]
  rfl

theorem drivable_of_fits {v : Int} (h : 0 ≤ v ∧ v < 2 ^ 64) (wide : HostWideInput) :
    drivable wide v = some (BitVec.ofInt 64 v) :=
  if_pos h

theorem drivable_reject {v : Int} (h : ¬(0 ≤ v ∧ v < 2 ^ 64)) : drivable .reject v = none :=
  if_neg h

/-- Under `truncate64` every value is driven as its low 64 bits. -/
theorem drivable_truncate64 (v : Int) : drivable .truncate64 v = some (BitVec.ofInt 64 v) :=
  ite_self _

@[simp] theorem argumentAddress_none : argumentAddress none = none := rfl

theorem argumentAddress_of_parsed {text : String} {v : Int} (h : hostParse text = some v) :
    argumentAddress (some text) = drivable Config.hostWideInput v := by
  simp [argumentAddress, h]

theorem argumentAddress_of_unparsed {text : String} (h : hostParse text = none) :
    argumentAddress (some text) = none := by
  simp [argumentAddress, h]

/-- Settles O34: a value of 64 bits is its own remainder. -/
theorem wideParsedValuesAreRejectedOrTruncated : Obligations.WideParsedValuesAreRejectedOrTruncated := by
  refine ⟨fun v => ⟨fun ⟨hlow, hhigh⟩ wide => ?_, fun h => ?_⟩, fun text v h => argumentAddress_of_parsed h⟩
  · exact ⟨_, drivable_of_fits ⟨hlow, hhigh⟩ wide, (toNat_ofInt_64 v).trans (Int.emod_eq_of_lt hlow hhigh)⟩
  · exact ⟨drivable_reject h, _, drivable_truncate64 v, toNat_ofInt_64 v⟩

/-! ### What is written -/

/-- The digit characters are those from `0` to `9`. -/
theorem digit_bounds {c : Char} (h : c.isDigit = true) : '0' ≤ c ∧ c ≤ '9' := by
  simpa [Char.isDigit, Char.le_def] using h

/-- A positive number has no leading zero: its first digit is itself below ten, and else that of its tenth (R77). -/
theorem head?_decimal_ne_zero {n : Nat} (hn : 0 < n) : (decimal n).head? ≠ some '0' := by
  induction n using Nat.strongRecOn with
  | ind n ih =>
    obtain hlt | hge := Nat.lt_or_ge n 10
    · rw [decimal, Nat.toDigits_of_lt_base hlt]
      simpa using Nat.ne_of_gt hn
    · have hfirst : (decimal n).head? = (decimal (n / 10)).head? := by
        rw [decimal, Nat.toDigits_of_base_le (by decide) hge, List.head?_append_of_ne_nil _ Nat.toDigits_ne_nil]
        rfl
      rw [hfirst]
      exact ih (n / 10) (by omega) (by omega)

/-- Reading the digits most significant first gives the number back (R77). -/
theorem foldl_decimal (n : Nat) : (decimal n).foldl (fun v c => 10 * v + (c.toNat - '0'.toNat)) 0 = n := by
  rw [decimal, ← Nat.ofDigitChars_eq_foldl, Nat.ofDigitChars_ten_toDigits]

/-- Settles O35: the digits are `Nat.toDigits` in base 10, and each line is written in turn. -/
theorem decimalValuesHaveNoLeadingZeros : Obligations.DecimalValuesHaveNoLeadingZeros := by
  refine ⟨Nat.toDigits_zero 10, fun n => ⟨fun c hc => ?_, head?_decimal_ne_zero, foldl_decimal n⟩, rfl,
    fun l rest => rfl⟩
  exact digit_bounds (Nat.isDigit_of_mem_toDigits (by decide) (by decide) hc)

/-- The output of a run that ended well: two blocks, a delimiter line between them (R76). -/
theorem reportLines_bothResults (a : LinearAddress) :
    reportLines (bothResults a) =
      resultBlock .fourKiB (indices4K a) ++ .delimiter :: resultBlock .twoMiB (indices2M a) := rfl

/-! ### A command-line run -/

/-- The step after a launch checks the argument. -/
theorem step_launch {s : State} (hf : s.flight = .idle) (ha : s.agenda = []) (arg : Option String) :
    step (s.launch arg) = .next ((s.launch arg).checkArgument arg) :=
  step_of_launched hf ha rfl

theorem checkArgument_of_address {arg : Option String} {a : LinearAddress} (h : argumentAddress arg = some a)
    (s : State) : s.checkArgument arg = { s with agenda := bothDrives a, held := [], host := .decoding } := by
  simp [State.checkArgument, h]

theorem checkArgument_of_no_address {arg : Option String} (h : argumentAddress arg = none) (s : State) :
    s.checkArgument arg = { s with held := [], host := .exited usageResult } := by
  simp [State.checkArgument, h]

/-- On an address, one step for the argument and six for the two pairs lead to the host about to report (R72). -/
theorem runSteps_launch_of_address {s : State} {arg : Option String} {a : LinearAddress} (hf : s.flight = .idle)
    (ha : s.agenda = []) (harg : argumentAddress arg = some a) :
    ∃ u, (∀ n, runSteps (n + 7) (s.launch arg) = runSteps n u) ∧ u.held = bothResults a ∧
      step u = .next u.report ∧ u.agenda = [] := by
  have hcheck := checkArgument_of_address harg (s.launch arg)
  obtain ⟨u, hrun, hheld, hagenda, hflight, hhost⟩ := runSteps_agenda (bothDrives a)
    (s := (s.launch arg).checkArgument arg) (by rw [checkArgument_flight]; exact hf) (by rw [hcheck])
  refine ⟨u, fun n => ?_, ?_, step_of_decoding hflight hagenda (by rw [hhost, hcheck]), hagenda⟩
  · rw [runSteps_succ (n + 6) (step_launch hf ha arg)]
    exact hrun n
  · rw [hheld, checkArgument_held]
    rfl

/-- Settles O31: the host reports what the seven steps have read. -/
theorem runOnAnAddressReportsBothResults : Obligations.RunOnAnAddressReportsBothResults := by
  refine ⟨fun s arg a hf ha harg => ?_, fun label n => rfl, rfl⟩
  obtain ⟨u, hrun, hheld, hreport, -⟩ := runSteps_launch_of_address hf ha harg
  refine ⟨u, u.report, hrun 0, hheld, hreport, (hrun 1).trans (runSteps_succ 0 hreport), report_held u, ?_⟩
  rw [report_host, hheld, ranResult, reportLines_bothResults]
  simp [resultBlock, valueLines]

/-- Settles O32: the argument check ends the run, whatever made the argument bad. -/
theorem runOnInvalidInputPrintsUsageAndDrivesNothing : Obligations.RunOnInvalidInputPrintsUsageAndDrivesNothing := by
  refine ⟨argumentAddress_none, fun text => argumentAddress_of_unparsed, fun s arg hf ha harg => ?_, rfl⟩
  rw [step_launch hf ha, checkArgument_of_no_address harg]
  rfl

/-! ### Between runs -/

/-- After a run has ended, further steps leave its record, and what the host holds and has to drive, as they are. -/
theorem runSteps_of_exited {s : State} {r : RunResult} (n : Nat) (hf : s.flight = .idle) (ha : s.agenda = [])
    (hh : s.host = .exited r) :
    ∃ t, runSteps n s = .next t ∧ t.host = .exited r ∧ t.held = s.held ∧ t.agenda = [] := by
  induction n generalizing s with
  | zero => exact ⟨s, runSteps_zero s, hh, rfl, ha⟩
  | succ n ih =>
    have hstep := (step_of_rest hf ha (.inr ⟨r, hh⟩)).trans (evaluate_eq s)
    rw [runSteps_succ n hstep]
    exact ih (by simp [hf, Flight.settle]) ha hh

/-- How a run on an argument ends. -/
def runResult (arg : Option String) : RunResult :=
  match argumentAddress arg with
  | some a => ranResult (bothResults a)
  | none => usageResult

theorem runResult_of_address {arg : Option String} {a : LinearAddress} (h : argumentAddress arg = some a) :
    runResult arg = ranResult (bothResults a) := by
  simp [runResult, h]

theorem runResult_of_no_address {arg : Option String} (h : argumentAddress arg = none) :
    runResult arg = usageResult := by
  simp [runResult, h]

/-- Eight steps after a launch the run has ended as its argument alone says, and nothing is held or left to drive. -/
theorem runSteps_launch {s : State} (hf : s.flight = .idle) (ha : s.agenda = []) (arg : Option String) :
    ∃ t, runSteps 8 (s.launch arg) = .next t ∧ t.host = .exited (runResult arg) ∧ t.held = [] ∧ t.agenda = [] := by
  cases harg : argumentAddress arg with
  | some a =>
    obtain ⟨u, hrun, hheld, hreport, hagenda⟩ := runSteps_launch_of_address hf ha harg
    refine ⟨u.report, (hrun 1).trans (runSteps_succ 0 hreport), ?_, report_held u, hagenda⟩
    rw [report_host, hheld, runResult_of_address harg]
  | none =>
    rw [runSteps_succ 7 (step_launch hf ha arg), checkArgument_of_no_address harg, runResult_of_no_address harg]
    exact runSteps_of_exited 7 hf ha rfl

/-- Settles O38: how a run ends is a function of its argument, whatever the state it was launched from. -/
theorem runsKeepNothingBetweenThem : Obligations.RunsKeepNothingBetweenThem := by
  intro s s' arg hf ha hf' ha'
  obtain ⟨t, hrun, hhost, hheld, hagenda⟩ := runSteps_launch hf ha arg
  obtain ⟨t', hrun', hhost', hheld', hagenda'⟩ := runSteps_launch hf' ha' arg
  exact ⟨t, t', runResult arg, hrun, hrun', hhost, hhost', hheld, hheld', hagenda, hagenda'⟩

end Sys2Proof.Machine

/-! PROOFS. The statements of 60_exceptions.md: nothing stops the machine (R84), decoded output and usage message are
never written by one run (R87), and two instances do not disturb each other (R94). -/

namespace Sys2Proof.Machine

/-! ### No stops -/

/-- A step is an evaluation or an action of the host, and each of them completes. -/
theorem exists_step (s : State) : ∃ t, step s = .next t := by
  cases hf : s.flight with
  | settling => exact ⟨_, (step_of_settling hf).trans (evaluate_eq s)⟩
  | ready => exact ⟨_, step_of_ready hf⟩
  | idle =>
    cases ha : s.agenda with
    | cons d rest => exact ⟨_, step_of_agenda hf ha⟩
    | nil =>
      cases hh : s.host with
      | launched arg => exact ⟨_, step_of_launched hf ha hh⟩
      | decoding => exact ⟨_, step_of_decoding hf ha hh⟩
      | idle => exact ⟨_, (step_of_rest hf ha (.inl hh)).trans (evaluate_eq s)⟩
      | exited r => exact ⟨_, (step_of_rest hf ha (.inr ⟨r, hh⟩)).trans (evaluate_eq s)⟩

/-- Settles O20: an operation settles the outputs, and every step completes. -/
theorem noStepStops : Obligations.NoStepStops :=
  ⟨fun i s => ⟨_, exec_eq i s⟩, exists_step⟩

/-! ### Kinds of lines -/

/-- The usage message has no numeric line (R79). -/
theorem any_isNumeric_usageLines : usageLines.any OutLine.isNumeric = false := rfl

/-- The block of one result has a header and numeric lines only (R76, R78). -/
theorem any_isUsage_resultBlock (m : Mode) (r : Indices) : (resultBlock m r).any OutLine.isUsage = false := by
  cases hheader : Config.modeHeader m <;> simp [resultBlock, valueLines, hheader, OutLine.isUsage]

/-- A report has no line of the usage message, whatever its results. -/
theorem any_isUsage_reportLines (results : List Reading) : (reportLines results).any OutLine.isUsage = false := by
  induction results using reportLines.induct with
  | case1 => rfl
  | case2 r => exact any_isUsage_resultBlock r.drive.mode r.out
  | case3 r rest hrest ih => simp [reportLines, any_isUsage_resultBlock, ih, OutLine.isUsage]

/-- Settles O36: a finished run took the usage path, with no numeric line, or reported, with no usage line. -/
theorem usageAndNumericLinesNeverAppearTogether : Obligations.UsageAndNumericLinesNeverAppearTogether := by
  rintro s r hs hr ⟨husage, hnumeric⟩
  obtain rfl | ⟨a, rfl⟩ := hs.exited r hr
  · exact absurd hnumeric (Bool.eq_false_iff.mp any_isNumeric_usageLines)
  · exact absurd husage (Bool.eq_false_iff.mp (any_isUsage_reportLines (bothResults a)))

/-! ### Two instances -/

/-- Each of two instances ends where its own steps of the schedule alone lead it (R94). -/
theorem interleave_eq (schedule : List Bool) (a b : State) :
    interleave schedule (a, b) = (advance^[schedule.count false] a, advance^[schedule.count true] b) := by
  induction schedule generalizing a b with
  | nil => rfl
  | cons second rest ih =>
    cases second with
    | false => simp [interleave, ih]
    | true => simp [interleave, ih]

/-- Since no step stops, advancing `n` times is a run of `n` steps. -/
theorem runSteps_eq_iterate_advance (n : Nat) (s : State) : runSteps n s = .next (advance^[n] s) := by
  induction n generalizing s with
  | zero => rfl
  | succ n ih =>
    obtain ⟨t, ht⟩ := exists_step s
    rw [runSteps_succ n ht, ih, Function.iterate_succ_apply, advance_of_step ht]

/-- A machine at rest reads nothing, however often it is stepped. -/
theorem held_iterate_advance_of_rest {s : State} (n : Nat) (hf : s.flight = .idle) (ha : s.agenda = [])
    (hh : s.host = .idle ∨ ∃ r, s.host = .exited r) : (advance^[n] s).held = s.held := by
  induction n generalizing s with
  | zero => rfl
  | succ n ih =>
    have hstep := advance_of_step ((step_of_rest hf ha hh).trans (evaluate_eq s))
    rw [Function.iterate_succ_apply, hstep]
    exact ih (by simp [hf, Flight.settle]) ha hh

/-- Stepped at least three times a pair, an instance with no run has read `Decode` of each pair of its agenda, in
order, and nothing more (R104). -/
theorem held_iterate_advance_of_agenda {s : State} {n : Nat} (hf : s.flight = .idle) (hh : s.host = .idle)
    (hn : 3 * s.agenda.length ≤ n) : (advance^[n] s).held = s.held ++ s.agenda.map readingOf := by
  obtain ⟨t, hrun, hheld, hagenda, hflight, hhost⟩ := sequenceOfEvaluationsReadsDecodeOfEachPair s hf
  obtain ⟨k, rfl⟩ := Nat.exists_eq_add_of_le' hn
  have hend : advance^[3 * s.agenda.length] s = t :=
    Host.Outcome.next.inj ((runSteps_eq_iterate_advance _ s).symm.trans hrun)
  calc (advance^[k + 3 * s.agenda.length] s).held
      = (advance^[k] t).held := by rw [Function.iterate_add_apply, hend]
    _ = t.held := held_iterate_advance_of_rest k hflight hagenda (.inl (hhost.trans hh))
    _ = s.held ++ s.agenda.map readingOf := hheld

/-- Settles O30: the schedule reaches an instance only as the number of its own steps. -/
theorem interleavedInstancesReadTheirOwnResults : Obligations.InterleavedInstancesReadTheirOwnResults := by
  intro schedule a b haf hah haheld hacount hbf hbh hbheld hbcount
  rw [interleave_eq]
  constructor
  · simpa [haheld] using held_iterate_advance_of_agenda haf hah hacount
  · simpa [hbheld] using held_iterate_advance_of_agenda hbf hbh hbcount

end Sys2Proof.Machine

/-! PROOFS. The statements of 70_reset_and_hazards.md: the outputs after a reset (R98), when they have settled (R101), and
that the host reads them only then (R102). -/

namespace Sys2Proof.Machine

/-! ### After a reset -/

/-- Settles O21: nothing is in flight at reset, so that the invariant's first part gives the outputs. -/
theorem resetOutputsFollowTheInputsPresent : Obligations.ResetOutputsFollowTheInputsPresent :=
  ⟨rfl, rfl, rfl, rfl, rfl, rfl, resetMeetsTheInvariant.coherent (by decide)⟩

/-! ### Settled outputs -/

/-- From `T_PD` after an input change the outputs are `Decode` of the inputs (R101). -/
theorem outputsAt_of_propagationDelay_le {elapsed : Nat} (h : Config.propagationDelay ≤ elapsed) (n : Nat) (d : Drive) :
    outputsAt n d elapsed = decodeAddress d.addr d.mode :=
  if_neg (Nat.not_lt.mpr h)

/-- The step that finishes a settling evaluation leaves `Decode` of the inputs on the ports. -/
theorem step_outputs_of_settling {s t : State} (hf : s.flight = .settling) (h : step s = .next t) :
    t.outputs = decodeAddress s.inputs.addr s.inputs.mode := by
  rw [step_of_settling hf] at h
  rw [eq_settleOutputs_of_evaluate h, settleOutputs_outputs]
  rfl

/-- Settles O28: a settling step leaves what the ports carry from `T_PD` on. -/
theorem outputsSettleWithinThePropagationDelay : Obligations.OutputsSettleWithinThePropagationDelay := by
  refine ⟨fun n _ d hle => outputsAt_of_propagationDelay_le hle n d, fun s t n elapsed hf h hle => ?_⟩
  rw [step_outputs_of_settling hf h, outputsAt_of_propagationDelay_le hle]

/-- What the host reads of settled outputs is `Decode` of the pair on the inputs (R24, R101). -/
theorem reading_eq_readingOf_inputs {s : State} (hs : s.Inv) (hf : s.flight = .ready) :
    (⟨s.inputs, s.outputs⟩ : Reading) = readingOf s.inputs := by
  have hout : s.outputs = decodeAddress s.addr_i (modeOfBit s.mode_i) := hs.coherent (by simp [hf])
  rw [hout]
  rfl

/-- Settles O27: of the five things a step can be, only a read adds to what is held; an evaluation and a drive leave it
as it is, and the argument check and the report empty it. -/
theorem theHostReadsOnlySettledOutputs : Obligations.TheHostReadsOnlySettledOutputs := by
  intro s t r hs h hr hnew
  cases step_cases h with
  | evaluates _ => exact absurd hr hnew
  | reads hf =>
    rw [readOutputs_held, reading_eq_readingOf_inputs hs hf] at hr ⊢
    obtain rfl : r = readingOf s.inputs := by simpa [hnew] using hr
    exact ⟨hf, rfl, rfl⟩
  | drives d rest _ _ => exact absurd hr hnew
  | checks arg _ _ _ =>
    rw [checkArgument_held] at hr
    exact absurd hr List.not_mem_nil
  | reports _ _ _ =>
    rw [report_held] at hr
    exact absurd hr List.not_mem_nil

end Sys2Proof.Machine
